-- ==== Sys2Proof/Word.lean ====
section
/-!
DEFINITION. The two word types of the core: every bus datum and every register but PC is 8 bits, PC and every
address 16 (spec R8, R10).
-/

namespace Sys2Proof

/-- `u8` of R10: register contents, bus data, operand bytes. -/
abbrev Byte := BitVec 8

/-- `u16` of R10: PC and addresses. -/
abbrev Word := BitVec 16

end Sys2Proof
end

