-- ==== Sys2Proof/Machine/Bits.lean ====
section
/-!
DEFINITION. Bit-field, byte-order and sign-extension helpers of spec R10 and R57.
-/

namespace Sys2Proof.Machine

/-- `(hi << 8) | lo` (R10): the byte order of every 16-bit value is decided here (R57). -/
def joinBytes (hi lo : Byte) : Word := hi ++ lo

/-- `w[7:0]`. -/
def lowByte (w : Word) : Byte := w.extractLsb' 0 8

/-- `w[15:8]`. -/
def highByte (w : Word) : Byte := w.extractLsb' 8 8

/-- `zext_16(v)` (R10). -/
def zeroExtend16 (v : Byte) : Word := v.zeroExtend 16

/-- `sext_16(v)` (R10). -/
def signExtend16 (v : Byte) : Word := v.signExtend 16

/-- `0x0000 | z`: an address of the zero page (R53). -/
def zeroPageAddr (z : Byte) : Word := joinBytes 0x00#8 z

/-- `0x0100 | SP`: an address of the stack page (R23, R54). -/
def stackAddr (sp : Byte) : Word := joinBytes 0x01#8 sp

end Sys2Proof.Machine
end

