-- ==== Sys2Proof/Config.lean ====
section
/-!
DEFINITION. The implementation parameters of spec R9 and the one free value of the model, the answer of a device to
a bus read (R51, U5).
-/

namespace Sys2Proof

/-- `DECIMAL_MODE` of R9 (D7): what ADC and SBC do when P.D = 1. -/
inductive DecimalMode
  | binary
  | bcd65c02
  deriving DecidableEq, Repr

/-- The eight extension groups of R89. -/
inductive Extension
  | bra
  | xyStack
  | stz
  | tsbTrb
  | incDecA
  | bit
  | jmpIx
  | bitOps
  deriving DecidableEq, Repr

/-- The twelve named parameters of R9, fixed for the life of a core (R330). -/
structure Params where
  decimalMode       : DecimalMode
  extBra            : Bool
  extXyStack        : Bool
  extStz            : Bool
  extTsbTrb         : Bool
  extIncDecA        : Bool
  extBit            : Bool
  extJmpIx          : Bool
  extBitOps         : Bool
  phpB              : Bool
  resetReadsCounted : Bool
  brkClearsIrq      : Bool
  deriving DecidableEq, Repr

/-- The value of a group's own parameter (R89, R114). -/
def Params.enabled (p : Params) : Extension → Bool
  | .bra     => p.extBra
  | .xyStack => p.extXyStack
  | .stz     => p.extStz
  | .tsbTrb  => p.extTsbTrb
  | .incDecA => p.extIncDecA
  | .bit     => p.extBit
  | .jmpIx   => p.extJmpIx
  | .bitOps  => p.extBitOps

/-- `p` with one group's parameter set true. -/
def Params.enabling (p : Params) : Extension → Params
  | .bra     => { p with extBra := true }
  | .xyStack => { p with extXyStack := true }
  | .stz     => { p with extStz := true }
  | .tsbTrb  => { p with extTsbTrb := true }
  | .incDecA => { p with extIncDecA := true }
  | .bit     => { p with extBit := true }
  | .jmpIx   => { p with extJmpIx := true }
  | .bitOps  => { p with extBitOps := true }

/-- FREE VALUE (R51, U5, log 3): the byte the platform answers when the core reads a device address. The first
argument is the count of device reads so far, the second the address; nothing constrains the answer. -/
opaque Config.deviceAnswer : Nat → Word → Byte

end Sys2Proof
end

