-- ==== Sys2Proof/Machine/Defaults.lean ====
section
/-!
DEFINITION. The default of every parameter (spec R9), and what a byte of memory that nothing has written reads as
(D14, U12, log 2).
-/

namespace Sys2Proof.Machine

/-- The default column of R9: D2, D6, D7, D8, D9. -/
def defaultParams : Params where
  decimalMode       := .binary
  extBra            := false
  extXyStack        := false
  extStz            := false
  extTsbTrb         := false
  extIncDecA        := false
  extBit            := false
  extJmpIx          := false
  extBitOps         := false
  phpB              := true
  resetReadsCounted := true
  brkClearsIrq      := false

/-- DESIGN CHOICE (log 2): the platform of the spec's own vectors, "an unwritten byte reads 0x00" (D14). -/
def unwrittenByte : Byte := 0x00#8

end Sys2Proof.Machine
end

