-- ==== Sys2Proof/Machine/Memory.lean ====
section
/-!
DEFINITION. The 65,536 bytes of the one address space (spec R52) as a list of (address, byte) pairs in canonical form:
addresses strictly rising, and no entry equal to what an unlisted address reads as.
-/

namespace Sys2Proof.Machine

abbrev Memory := List Host.Cell

/-- One byte. An unlisted address reads `unwrittenByte` (log 2). -/
def Memory.read : Memory → Nat → Byte
  | [], _ => unwrittenByte
  | (k, v) :: rest, a => if k = a then v else Memory.read rest a

/-- Write one byte, keeping the canonical form: writing `unwrittenByte` removes the entry. -/
def Memory.write : Memory → Nat → Byte → Memory
  | [], a, v => if v = unwrittenByte then [] else [(a, v)]
  | (k, w) :: rest, a, v =>
    if a < k then
      if v = unwrittenByte then (k, w) :: rest else (a, v) :: (k, w) :: rest
    else if a = k then
      if v = unwrittenByte then rest else (a, v) :: rest
    else (k, w) :: Memory.write rest a v

/-- The canonical form, inside the 16-bit address space (R52). -/
def Memory.wf (m : Memory) : Bool :=
  decide (m.Pairwise fun p q => p.1 < q.1)
    && m.all fun p => decide (p.1 < 0x10000) && p.2 != unwrittenByte

end Sys2Proof.Machine
end

