-- ==== Sys2Proof/Machine/State.lean ====
section
/-!
DEFINITION. The state of the machine (spec R31): the core's registers, flags, latch, halt flag and tick counter; the
platform's side of its bus; the parameters of R9; and what the bus saw of the step. Its update functions, the two
outcome types other than a next state, and the state after `new(bus)` (R32, R450).
-/

namespace Sys2Proof.Machine

/-- The six stored flags of P (R24). Bits 5 and 4 of P are not stored. -/
structure Flags where
  n : Bool
  v : Bool
  d : Bool
  i : Bool
  z : Bool
  c : Bool
  deriving DecidableEq, Repr

/-- The pending interrupt sources (R30). -/
structure Latch where
  nmi : Bool
  irq : Bool
  deriving DecidableEq, Repr

/-- The two sources of R400. -/
inductive Source
  | nmi
  | irq
  deriving DecidableEq, Repr

/-- One bus access as the bus sees it (R50, R60). -/
inductive BusAccess
  | read (addr : Word) (v : Byte)
  | write (addr : Word) (v : Byte)
  deriving DecidableEq, Repr

/-- A window of addresses whose reads a device answers (R51, R56, log 3): `size` addresses from `base`. -/
structure Window where
  base : Nat
  size : Nat
  deriving DecidableEq, Repr

/-- What the bus does in one `clock(n)` call (R50, R63): the interrupt mask it returns, and the bytes of memory that
devices change in that window. -/
structure ClockAnswer where
  nmi    : Bool
  irq    : Bool
  writes : List (Word × Byte)
  deriving DecidableEq, Repr

/-- The core's state (R31), the platform it depends on, and the record of the step. -/
structure State where
  a            : Byte
  x            : Byte
  y            : Byte
  sp           : Byte
  pc           : Word
  p            : Flags
  cycles       : BitVec 32
  latch        : Latch
  halted       : Bool
  /-- the parameters of R9, constant for the life of a core (R330, log 4) -/
  params       : Params
  mem          : Memory
  windows      : List Window
  /-- how many device reads have been answered: the argument of the free value (log 3) -/
  deviceReads  : Nat
  /-- the answers to the coming `clock` calls, the next one first (log 5) -/
  clockAnswers : List ClockAnswer
  /-- the accesses since the step began, in order (log 6) -/
  accesses     : List BusAccess
  /-- what the last `step` returned (R110, log 6) -/
  returned     : BitVec 32
  deriving DecidableEq, Repr

/-- Why the machine stops with a fault: never. The core raises no exception and every access completes (R14, R51,
R121), so no reason exists and nothing raises one. -/
inductive Fault
  deriving DecidableEq, Repr

/-- Why an instruction has no meaning in the model. -/
inductive Refusal
  /-- Raised only by an arm of `exec` for an instruction that is not modelled yet; safe. No arm raises it now. -/
  | notModelled (mnemonic : String)
  deriving DecidableEq, Repr

/-! One update function for each part of the state that instructions write. -/

def State.setA (s : State) (v : Byte) : State := { s with a := v }

def State.setX (s : State) (v : Byte) : State := { s with x := v }

def State.setY (s : State) (v : Byte) : State := { s with y := v }

def State.setSp (s : State) (v : Byte) : State := { s with sp := v }

def State.setPc (s : State) (w : Word) : State := { s with pc := w }

def State.setP (s : State) (f : Flags) : State := { s with p := f }

def State.setLatch (s : State) (l : Latch) : State := { s with latch := l }

/-- The state right after `new(bus)` on an empty bus with the default parameters (R32, R450, C1, log 1): PC holds what
the reset vector reads as, and the two reads of it are counted when RESET_READS_COUNTED says so (D8). -/
def State.reset : State where
  a            := 0x00#8
  x            := 0x00#8
  y            := 0x00#8
  sp           := 0xFF#8
  pc           := joinBytes (Memory.read [] 0xFFFD) (Memory.read [] 0xFFFC)
  p            := { n := false, v := false, d := false, i := true, z := false, c := false }
  cycles       := if defaultParams.resetReadsCounted then 2#32 else 0#32
  latch        := { nmi := false, irq := false }
  halted       := false
  params       := defaultParams
  mem          := []
  windows      := []
  deviceReads  := 0
  clockAnswers := []
  accesses     := [.read 0xFFFC#16 (Memory.read [] 0xFFFC), .read 0xFFFD#16 (Memory.read [] 0xFFFD)]
  returned     := 0#32

end Sys2Proof.Machine
end

