-- ==== Sys2Proof/Machine/Flags.lean ====
section
/-!
DEFINITION. P as a byte (spec R12, R24, R25), and the result and flags of every ALU, shift and bit operation
(R210-R221, R250-R256, R335-R340).
-/

namespace Sys2Proof.Machine

/-- `setNZ(v)` of R12. -/
def Flags.setNZ (f : Flags) (v : Byte) : Flags := { f with n := v.msb, z := v == 0x00#8 }

/-- `Pbyte(b)` of R12: bit 5 is 1, bit 4 is `b` (R24). -/
def Flags.toByte (f : Flags) (b : Bool) : Byte :=
  BitVec.ofBool f.n ++ BitVec.ofBool f.v ++ BitVec.ofBool true ++ BitVec.ofBool b
    ++ BitVec.ofBool f.d ++ BitVec.ofBool f.i ++ BitVec.ofBool f.z ++ BitVec.ofBool f.c

/-- `Pset(v)` of R25: bits 5 and 4 are discarded. -/
def Flags.ofByte (v : Byte) : Flags where
  n := v.getLsbD 7
  v := v.getLsbD 6
  d := v.getLsbD 3
  i := v.getLsbD 2
  z := v.getLsbD 1
  c := v.getLsbD 0

/-- A carry as the integer 0 or 1. -/
def carryNat (c : Bool) : Nat := if c then 1 else 0

/-- Binary ADC (R210): the 9-bit sum, its low byte, its carry and the signed overflow. -/
def adcBinary (a m : Byte) (f : Flags) : Byte × Flags :=
  let s : BitVec 9 := a.zeroExtend 9 + m.zeroExtend 9 + (BitVec.ofBool f.c).zeroExtend 9
  let r : Byte := s.extractLsb' 0 8
  (r, { f.setNZ r with c := s.msb, v := (~~~(a ^^^ m) &&& (a ^^^ r)).msb })

/-- Binary SBC (R212): ADC of the complemented operand. -/
def sbcBinary (a m : Byte) (f : Flags) : Byte × Flags := adcBinary a (~~~m) f

/-- The low digit of R211's sum, adjusted: `al`. -/
def adcLowDigit (a m : Byte) (c : Bool) : Nat :=
  let al := a.toNat % 16 + m.toNat % 16 + carryNat c
  if al ≥ 0x0A then (al + 0x06) % 16 + 0x10 else al

/-- `sext(v & 0xF0)` of R211, as an integer. -/
def highDigitInt (v : Byte) : Int := (v &&& 0xF0#8).toInt

/-- Decimal ADC (R211), defined for every input byte. -/
def adcDecimal (a m : Byte) (f : Flags) : Byte × Flags :=
  let al := adcLowDigit a m f.c
  let t0 := (a &&& 0xF0#8).toNat + (m &&& 0xF0#8).toNat + al
  let t := if t0 ≥ 0xA0 then t0 + 0x60 else t0
  let ts := highDigitInt a + highDigitInt m + (al : Int)
  let r : Byte := .ofNat 8 t
  (r, { f.setNZ r with c := decide (t ≥ 0x100), v := decide (ts < -128 ∨ ts > 127) })

/-- Decimal SBC (R213): C and V as binary SBC, the accumulator from the two digit adjustments. -/
def sbcDecimal (a m : Byte) (f : Flags) : Byte × Flags :=
  let al : Int := (a.toNat % 16 : Nat) - (m.toNat % 16 : Nat) + carryNat f.c - 1
  let t0 : Int := a.toNat - m.toNat + carryNat f.c - 1
  let t1 : Int := if t0 < 0 then t0 - 0x60 else t0
  let t : Int := if al < 0 then t1 - 0x06 else t1
  let r : Byte := .ofInt 8 t
  (r, { f.setNZ r with c := (sbcBinary a m f).2.c, v := (sbcBinary a m f).2.v })

/-- D selects decimal arithmetic only under BCD65C02 (R211, R213, R316). -/
def decimalActive (p : Params) (f : Flags) : Bool := f.d && p.decimalMode == .bcd65c02

/-- ADC (R210, R211). -/
def adcResult (p : Params) (a m : Byte) (f : Flags) : Byte × Flags :=
  if decimalActive p f then adcDecimal a m f else adcBinary a m f

/-- SBC (R212, R213). -/
def sbcResult (p : Params) (a m : Byte) (f : Flags) : Byte × Flags :=
  if decimalActive p f then sbcDecimal a m f else sbcBinary a m f

/-- AND (R215). -/
def andResult (a m : Byte) (f : Flags) : Byte × Flags := (a &&& m, f.setNZ (a &&& m))

/-- ORA (R216). -/
def oraResult (a m : Byte) (f : Flags) : Byte × Flags := (a ||| m, f.setNZ (a ||| m))

/-- EOR (R217). -/
def eorResult (a m : Byte) (f : Flags) : Byte × Flags := (a ^^^ m, f.setNZ (a ^^^ m))

/-- CMP, CPX, CPY (R219-R221): N and Z from the difference, C when the register is not below. -/
def compareFlags (reg m : Byte) (f : Flags) : Flags := { f.setNZ (reg - m) with c := decide (m.toNat ≤ reg.toNat) }

/-- `P.Z ← ((A & M) = 0)` alone: BIT #, TSB, TRB (R336-R338). -/
def testZ (a m : Byte) (f : Flags) : Flags := { f with z := (a &&& m) == 0x00#8 }

/-- BIT of a byte of memory (R218). -/
def bitFlags (a m : Byte) (f : Flags) : Flags := { testZ a m f with n := m.getLsbD 7, v := m.getLsbD 6 }

/-- ASL (R250). -/
def aslResult (v : Byte) (f : Flags) : Byte × Flags :=
  let r := v <<< 1
  (r, { f.setNZ r with c := v.getLsbD 7 })

/-- LSR (R251). -/
def lsrResult (v : Byte) (f : Flags) : Byte × Flags :=
  let r := v >>> 1
  (r, { f.setNZ r with c := v.getLsbD 0 })

/-- ROL (R252). -/
def rolResult (v : Byte) (f : Flags) : Byte × Flags :=
  let r := (v <<< 1) ||| (BitVec.ofBool f.c).zeroExtend 8
  (r, { f.setNZ r with c := v.getLsbD 7 })

/-- ROR (R253). -/
def rorResult (v : Byte) (f : Flags) : Byte × Flags :=
  let r := (v >>> 1) ||| ((BitVec.ofBool f.c).zeroExtend 8 <<< 7)
  (r, { f.setNZ r with c := v.getLsbD 0 })

/-- INC and INC A (R255, R335). -/
def incResult (v : Byte) (f : Flags) : Byte × Flags := (v + 1, f.setNZ (v + 1))

/-- DEC and DEC A (R256, R335). -/
def decResult (v : Byte) (f : Flags) : Byte × Flags := (v - 1, f.setNZ (v - 1))

/-- TSB (R337): the test uses the old byte. -/
def tsbResult (a v : Byte) (f : Flags) : Byte × Flags := (v ||| a, testZ a v f)

/-- TRB (R338). -/
def trbResult (a v : Byte) (f : Flags) : Byte × Flags := (v &&& ~~~a, testZ a v f)

/-- `1 << n` as a byte (R340). -/
def bitMask (n : Nat) : Byte := 1#8 <<< n

/-- RMBn (R340): no flag changes. -/
def rmbResult (n : Nat) (v : Byte) (f : Flags) : Byte × Flags := (v &&& ~~~(bitMask n), f)

/-- SMBn (R340): no flag changes. -/
def smbResult (n : Nat) (v : Byte) (f : Flags) : Byte × Flags := (v ||| bitMask n, f)

end Sys2Proof.Machine
end

