-- ==== Sys2Proof/Machine/Ops.lean ====
section
/-!
DEFINITION. The bus primitives of spec R11 and R12, the one entry sequence that interrupts and BRK share (R294, R406),
the return of RTI (R293), the sequencer's tests (R110, R111) and the bus clock that ends a step (R110).
-/

namespace Sys2Proof.Machine

def Window.covers (w : Window) (a : Word) : Bool := decide (w.base ≤ a.toNat) && decide (a.toNat < w.base + w.size)

/-- The address belongs to a device: reads of it are answered by the platform (R51). -/
def State.isDevice (s : State) (a : Word) : Bool := s.windows.any (·.covers a)

/-- What the bus answers to `read(a)` now (R51): plain RAM gives the byte last written (D14), a device a free value. -/
def State.busValue (s : State) (a : Word) : Byte :=
  if s.isDevice a then Config.deviceAnswer s.deviceReads a else s.mem.read a.toNat

/-- One bus read without a tick: only the vector reads of `new` and `reset()` may be such (R450). -/
def busRead (a : Word) (s : State) : Byte × State :=
  (s.busValue a,
   { s with
     deviceReads := if s.isDevice a then s.deviceReads + 1 else s.deviceReads
     accesses    := s.accesses ++ [.read a (s.busValue a)] })

/-- One bus write without a tick. A device keeps what it is given to itself (log 3). -/
def busWrite (a : Word) (v : Byte) (s : State) : State :=
  { s with
    mem      := if s.isDevice a then s.mem else s.mem.write a.toNat v
    accesses := s.accesses ++ [.write a v] }

/-- One tick (R13): modulo 2^32 (D15). -/
def tick (s : State) : State := { s with cycles := s.cycles + 1 }

/-- `MemRead(a, 1)` (R11). -/
def memRead (a : Word) (s : State) : Byte × State :=
  let r := busRead a s
  (r.1, tick r.2)

/-- `MemWrite(a, 1, v)` (R11). -/
def memWrite (a : Word) (v : Byte) (s : State) : State := tick (busWrite a v s)

/-- `fetch8()` (R12). -/
def fetch8 (s : State) : Byte × State :=
  let r := memRead s.pc s
  (r.1, r.2.setPc (s.pc + 1))

/-- `fetch16()` (R12): low byte first (D5). -/
def fetch16 (s : State) : Word × State :=
  let lo := fetch8 s
  let hi := fetch8 lo.2
  (joinBytes hi.1 lo.1, hi.2)

/-- Two byte reads, the low byte's first (D5). -/
def readPair (aLo aHi : Word) (s : State) : Word × State :=
  let lo := memRead aLo s
  let hi := memRead aHi lo.2
  (joinBytes hi.1 lo.1, hi.2)

/-- `read16(a)` (R12): the second address wraps at 0xFFFF. -/
def read16 (a : Word) (s : State) : Word × State := readPair a (a + 1) s

/-- `read16zp(z)` (R12): the second address wraps in the zero page. -/
def read16zp (z : Byte) (s : State) : Word × State := readPair (zeroPageAddr z) (zeroPageAddr (z + 1)) s

/-- `push(v)` (R12). -/
def push (v : Byte) (s : State) : State := (memWrite (stackAddr s.sp) v s).setSp (s.sp - 1)

/-- `pop()` (R12). -/
def pop (s : State) : Byte × State := memRead (stackAddr (s.sp + 1)) (s.setSp (s.sp + 1))

/-- Push a 16-bit value, high byte first (R291, R294, R406). -/
def pushWord (w : Word) (s : State) : State := push (lowByte w) (push (highByte w) s)

/-- Pop a 16-bit value, low byte first (R292, R293). -/
def popWord (s : State) : Word × State :=
  let lo := pop s
  let hi := pop lo.2
  (joinBytes hi.1 lo.1, hi.2)

/-- Set N and Z of the state from a value (R12). -/
def State.setNZ (s : State) (v : Byte) : State := s.setP (s.p.setNZ v)

/-- TAKING AN EXCEPTION: what interrupt entry (R406) and BRK (R294) share. Push the return address, push P with bit 4 =
`b`, set I, clear D, and load PC from the vector. -/
def takeEntry (b : Bool) (ret vector : Word) (s : State) : State :=
  let s1 := pushWord ret s
  let s2 := push (s1.p.toByte b) s1
  let r := read16 vector (s2.setP { s2.p with i := true, d := false })
  r.2.setPc r.1

/-- The vectors of R55 and R407. -/
def nmiVector : Word := 0xFFFA#16

def resetVector : Word := 0xFFFC#16

def irqVector : Word := 0xFFFE#16

def Source.vector : Source → Word
  | .nmi => nmiVector
  | .irq => irqVector

/-- The latch without one source. -/
def Latch.clear (l : Latch) : Source → Latch
  | .nmi => { l with nmi := false }
  | .irq => { l with irq := false }

/-- `enter_interrupt(S, V)` (R406): 5 accesses, B = 0, the PC pushed is that of the next instruction. -/
def enterInterrupt (src : Source) (s : State) : State :=
  takeEntry false s.pc src.vector (s.setLatch (s.latch.clear src))

/-- BRK's entry (R294). PC stands after the opcode; the padding byte is skipped unread (D4). -/
def softwareInterrupt (s : State) : State :=
  takeEntry true (s.pc + 1) irqVector
    (if s.params.brkClearsIrq then s.setLatch (s.latch.clear .irq) else s)

/-- RTI (R293, R409): pop P, then PC, with no +1. -/
def returnFromInterrupt (s : State) : State :=
  let v := pop s
  let w := popWord (v.2.setP (Flags.ofByte v.1))
  w.2.setPc w.1

/-- The interrupt the top of a step enters (R110, R111, R405): NMI first, IRQ only while I = 0. -/
def State.serviceable (s : State) : Option Source :=
  if s.latch.nmi then some .nmi
  else if s.latch.irq && !s.p.i then some .irq
  else none

/-- The next answer of the bus to `clock`; a platform with no answer left is quiet (log 5). -/
def State.clockAnswer (s : State) : ClockAnswer :=
  s.clockAnswers.headD { nmi := false, irq := false, writes := [] }

/-- Phase 2 of R110: report and zero the tick count, clock the bus, merge its interrupts into the latch (D13); devices
change memory only here (R63). -/
def clockBus (s : State) : State :=
  { s with
    returned     := s.cycles
    cycles       := 0
    latch        := { nmi := s.latch.nmi || s.clockAnswer.nmi, irq := s.latch.irq || s.clockAnswer.irq }
    mem          := s.clockAnswer.writes.foldl (fun m w => m.write w.1.toNat w.2) s.mem
    clockAnswers := s.clockAnswers.tail }

/-- A step begins with no access made (log 6). -/
def beginStep (s : State) : State := { s with accesses := [] }

end Sys2Proof.Machine
end

