-- ==== Sys2Proof/Syntax.lean ====
section
/-!
DEFINITION. The instructions of spec/opcode_table.json: one constructor per mnemonic, its addressing modes (R133-R148)
being its operand. Which modes an instruction has is checked in WellFormed.lean.
-/

namespace Sys2Proof

/-- The addressing modes that yield the 16-bit address of a datum (R136-R141, R143-R145). -/
inductive Addr
  /-- zero page `$zz` (R136) -/
  | zp (zz : Byte)
  /-- zero page,X (R137) -/
  | zpX (zz : Byte)
  /-- zero page,Y (R138) -/
  | zpY (zz : Byte)
  /-- absolute `$hhll` (R139) -/
  | abs (base : Word)
  /-- absolute,X (R140) -/
  | absX (base : Word)
  /-- absolute,Y (R141) -/
  | absY (base : Word)
  /-- (zero page,X), indexed indirect (R143) -/
  | indX (zz : Byte)
  /-- (zero page),Y, indirect indexed (R144) -/
  | indY (zz : Byte)
  /-- (zero page), indirect (R145) -/
  | ind (zz : Byte)
  deriving DecidableEq, Repr

/-- The operand of a read instruction: immediate (R135) or in memory (R131, `load`). -/
inductive Src
  | imm (v : Byte)
  | mem (m : Addr)
  deriving DecidableEq, Repr

/-- What a shift, INC or DEC changes: A (R134) or a byte of memory (R131, `rmw`). -/
inductive Loc
  | acc
  | mem (m : Addr)
  deriving DecidableEq, Repr

/-- The target forms of JMP (R139, R142, R147). -/
inductive Target
  /-- JMP `$hhll` (R289) -/
  | abs (target : Word)
  /-- JMP `($hhll)` (R290) -/
  | ind (ptr : Word)
  /-- JMP `($hhll,X)` (R341) -/
  | indX (base : Word)
  deriving DecidableEq, Repr

/-- The instruction set: the 99 mnemonics of spec/opcode_table.json. -/
inductive Instr
  -- Loads and stores, R160-R165
  | lda (src : Src)
  | ldx (src : Src)
  | ldy (src : Src)
  | sta (dst : Addr)
  | stx (dst : Addr)
  | sty (dst : Addr)
  -- Register transfers, R166-R171
  | tax
  | tay
  | tsx
  | txa
  | txs
  | tya
  -- Stack, R190-R193
  | pha
  | php
  | pla
  | plp
  -- Arithmetic, logic, compare, R210-R221
  | adc (src : Src)
  | sbc (src : Src)
  | and (src : Src)
  | ora (src : Src)
  | eor (src : Src)
  | bit (src : Src)
  | cmp (src : Src)
  | cpx (src : Src)
  | cpy (src : Src)
  -- Shifts, rotates, increments, decrements, R250-R260 (INC A and DEC A: R335)
  | asl (loc : Loc)
  | lsr (loc : Loc)
  | rol (loc : Loc)
  | ror (loc : Loc)
  | inc (loc : Loc)
  | dec (loc : Loc)
  | inx
  | dex
  | iny
  | dey
  -- Conditional branches, R280-R288
  | bpl (d : Byte)
  | bmi (d : Byte)
  | bvc (d : Byte)
  | bvs (d : Byte)
  | bcc (d : Byte)
  | bcs (d : Byte)
  | bne (d : Byte)
  | beq (d : Byte)
  -- Jumps, subroutines, returns, BRK, R289-R294 (JMP (abs,X): R341)
  | jmp (target : Target)
  | jsr (target : Word)
  | rts
  | rti
  | brk
  -- Flag instructions, R310-R316
  | clc
  | sec
  | cli
  | sei
  | clv
  | cld
  | sed
  -- NOP and the unimplemented opcodes, R317-R319
  | nop
  /-- an opcode byte the core does not implement (R318); the table's NOP__undefined -/
  | nopUndefined (op : Byte)
  | wai
  | stp
  -- 65C02 extensions, R331-R338
  | bra (d : Byte)
  | phx
  | phy
  | plx
  | ply
  | stz (dst : Addr)
  | tsb (loc : Addr)
  | trb (loc : Addr)
  -- Bit extensions, R339, R340
  | rmb0 (zz : Byte)
  | rmb1 (zz : Byte)
  | rmb2 (zz : Byte)
  | rmb3 (zz : Byte)
  | rmb4 (zz : Byte)
  | rmb5 (zz : Byte)
  | rmb6 (zz : Byte)
  | rmb7 (zz : Byte)
  | smb0 (zz : Byte)
  | smb1 (zz : Byte)
  | smb2 (zz : Byte)
  | smb3 (zz : Byte)
  | smb4 (zz : Byte)
  | smb5 (zz : Byte)
  | smb6 (zz : Byte)
  | smb7 (zz : Byte)
  | bbr0 (zz d : Byte)
  | bbr1 (zz d : Byte)
  | bbr2 (zz d : Byte)
  | bbr3 (zz d : Byte)
  | bbr4 (zz d : Byte)
  | bbr5 (zz d : Byte)
  | bbr6 (zz d : Byte)
  | bbr7 (zz d : Byte)
  | bbs0 (zz d : Byte)
  | bbs1 (zz d : Byte)
  | bbs2 (zz d : Byte)
  | bbs3 (zz d : Byte)
  | bbs4 (zz d : Byte)
  | bbs5 (zz d : Byte)
  | bbs6 (zz d : Byte)
  | bbs7 (zz d : Byte)
  deriving DecidableEq, Repr

end Sys2Proof
end

