-- ==== Sys2Proof/Machine/Operands.lean ====
section
/-!
DEFINITION. The addressing-mode resolver (spec R130-R148) and the three access classes `load`, `store` and `rmw` of
R131. The operand bytes have been fetched with the opcode (R84, log 7); what is left of a mode is its index addition
and its pointer reads.
-/

namespace Sys2Proof.Machine

/-- `resolve(mode)`: the effective address and the state after the mode's pointer reads (R136-R145). -/
def resolve (m : Addr) (s : State) : Word × State :=
  match m with
  | .zp z   => (zeroPageAddr z, s)
  | .zpX z  => (zeroPageAddr (z + s.x), s)
  | .zpY z  => (zeroPageAddr (z + s.y), s)
  | .abs w  => (w, s)
  | .absX w => (w + zeroExtend16 s.x, s)
  | .absY w => (w + zeroExtend16 s.y, s)
  | .indX z => read16zp (z + s.x) s
  | .indY z =>
    let base := read16zp z s
    (base.1 + zeroExtend16 s.y, base.2)
  | .ind z  => read16zp z s

/-- `load(mode)` (R131): an immediate makes no access of its own. -/
def load (src : Src) (s : State) : Byte × State :=
  match src with
  | .imm v => (v, s)
  | .mem m =>
    let ea := resolve m s
    memRead ea.1 ea.2

/-- A ← f(A, M), with the flags `f` gives: ADC, SBC, AND, ORA, EOR (R210-R217). -/
def accumulate (f : Byte → Byte → Flags → Byte × Flags) (src : Src) (s : State) : State :=
  let m := load src s
  let r := f m.2.a m.1 m.2.p
  (m.2.setA r.1).setP r.2

/-- Compare a register with M: only the flags are written (R219-R221). -/
def compareRegister (reg : Byte) (src : Src) (s : State) : State :=
  let m := load src s
  m.2.setP (compareFlags reg m.1 m.2.p)

/-- `store(mode, v)` (R131): no read of the target. -/
def store (m : Addr) (v : Byte) (s : State) : State :=
  let ea := resolve m s
  memWrite ea.1 v ea.2

/-- `rmw(mode, f)` (R131): one read, then one write of the same address; `f` gives the new byte and the flags. -/
def rmw (m : Addr) (f : Byte → Flags → Byte × Flags) (s : State) : State :=
  let ea := resolve m s
  let v := memRead ea.1 ea.2
  let r := f v.1 v.2.p
  memWrite ea.1 r.1 (v.2.setP r.2)

/-- The accumulator form and the memory form of one operation (R254). -/
def modifyLoc (l : Loc) (f : Byte → Flags → Byte × Flags) (s : State) : State :=
  match l with
  | .acc =>
    let r := f s.a s.p
    (s.setA r.1).setP r.2
  | .mem m => rmw m f s

/-- The target of JMP (R289, R290, R341). -/
def jumpTarget (t : Target) (s : State) : Word × State :=
  match t with
  | .abs w  => (w, s)
  | .ind w  => read16 w s
  | .indX w => read16 (w + zeroExtend16 s.x) s

/-- The common part of every branch (R280): PC stands after the displacement. -/
def branchIf (cond : Bool) (d : Byte) (s : State) : State :=
  if cond then s.setPc (s.pc + signExtend16 d) else s

/-- BBRn and BBSn (R339): read the zero-page byte, branch when its bit `n` is `want`. -/
def branchOnBit (n : Nat) (want : Bool) (zz d : Byte) (s : State) : State :=
  let v := memRead (zeroPageAddr zz) s
  branchIf (v.1.getLsbD n == want) d v.2

end Sys2Proof.Machine
end

