-- ==== Sys2Proof/Machine/Alu.lean ====
section
/-!
DEFINITION. Arithmetic, logic and compare (spec R210-R222, R336).
-/

namespace Sys2Proof.Machine

/-- ADC (R210), decimal under D and BCD65C02 (R211). -/
def execAdc (src : Src) (s : State) : Host.Outcome State Fault Refusal :=
  .next (accumulate (adcResult s.params) src s)

/-- SBC (R212), decimal under D and BCD65C02 (R213). -/
def execSbc (src : Src) (s : State) : Host.Outcome State Fault Refusal :=
  .next (accumulate (sbcResult s.params) src s)

/-- AND (R215). -/
def execAnd (src : Src) (s : State) : Host.Outcome State Fault Refusal :=
  .next (accumulate andResult src s)

/-- ORA (R216). -/
def execOra (src : Src) (s : State) : Host.Outcome State Fault Refusal :=
  .next (accumulate oraResult src s)

/-- EOR (R217). -/
def execEor (src : Src) (s : State) : Host.Outcome State Fault Refusal :=
  .next (accumulate eorResult src s)

/-- BIT: of memory N, V and Z (R218, R336); of an immediate Z alone (R336). -/
def execBit (src : Src) (s : State) : Host.Outcome State Fault Refusal :=
  let m := load src s
  match src with
  | .imm _ => .next (m.2.setP (testZ m.2.a m.1 m.2.p))
  | .mem _ => .next (m.2.setP (bitFlags m.2.a m.1 m.2.p))

/-- CMP (R219). -/
def execCmp (src : Src) (s : State) : Host.Outcome State Fault Refusal :=
  .next (compareRegister s.a src s)

/-- CPX (R220). -/
def execCpx (src : Src) (s : State) : Host.Outcome State Fault Refusal :=
  .next (compareRegister s.x src s)

/-- CPY (R221). -/
def execCpy (src : Src) (s : State) : Host.Outcome State Fault Refusal :=
  .next (compareRegister s.y src s)

end Sys2Proof.Machine
end

