-- ==== Sys2Proof/Machine/Control.lean ====
section
/-!
DEFINITION. Branches, jumps, subroutines, returns and BRK (spec R280-R295), BRA (R331).
-/

namespace Sys2Proof.Machine

/-- BPL (R281): taken when N = 0. -/
def execBpl (d : Byte) (s : State) : Host.Outcome State Fault Refusal :=
  .next (branchIf (!s.p.n) d s)

/-- BMI (R282): taken when N = 1. -/
def execBmi (d : Byte) (s : State) : Host.Outcome State Fault Refusal :=
  .next (branchIf s.p.n d s)

/-- BVC (R283): taken when V = 0. -/
def execBvc (d : Byte) (s : State) : Host.Outcome State Fault Refusal :=
  .next (branchIf (!s.p.v) d s)

/-- BVS (R284): taken when V = 1. -/
def execBvs (d : Byte) (s : State) : Host.Outcome State Fault Refusal :=
  .next (branchIf s.p.v d s)

/-- BCC (R285): taken when C = 0. -/
def execBcc (d : Byte) (s : State) : Host.Outcome State Fault Refusal :=
  .next (branchIf (!s.p.c) d s)

/-- BCS (R286): taken when C = 1. -/
def execBcs (d : Byte) (s : State) : Host.Outcome State Fault Refusal :=
  .next (branchIf s.p.c d s)

/-- BNE (R287): taken when Z = 0. -/
def execBne (d : Byte) (s : State) : Host.Outcome State Fault Refusal :=
  .next (branchIf (!s.p.z) d s)

/-- BEQ (R288): taken when Z = 1. -/
def execBeq (d : Byte) (s : State) : Host.Outcome State Fault Refusal :=
  .next (branchIf s.p.z d s)

/-- BRA (R331): always taken. -/
def execBra (d : Byte) (s : State) : Host.Outcome State Fault Refusal :=
  .next (branchIf true d s)

/-- JMP (R289, R290, R341). -/
def execJmp (target : Target) (s : State) : Host.Outcome State Fault Refusal :=
  let t := jumpTarget target s
  .next (t.2.setPc t.1)

/-- JSR (R291): push the address of its last byte, PC - 1 with PC past the instruction. -/
def execJsr (target : Word) (s : State) : Host.Outcome State Fault Refusal :=
  .next ((pushWord (s.pc - 1) s).setPc target)

/-- RTS (R292): the popped address plus one. -/
def execRts (s : State) : Host.Outcome State Fault Refusal :=
  let w := popWord s
  .next (w.2.setPc (w.1 + 1))

/-- RTI (R293). -/
def execRti (s : State) : Host.Outcome State Fault Refusal :=
  .next (returnFromInterrupt s)

/-- BRK (R294): a software interrupt. -/
def execBrk (s : State) : Host.Outcome State Fault Refusal :=
  .next (softwareInterrupt s)

end Sys2Proof.Machine
end

