-- ==== Sys2Proof/Machine/Extensions.lean ====
section
/-!
DEFINITION. 65C02 extensions on memory (spec R334, R337-R340).
-/

namespace Sys2Proof.Machine

/-- STZ (R334): no flag changes. -/
def execStz (dst : Addr) (s : State) : Host.Outcome State Fault Refusal :=
  .next (store dst 0x00#8 s)

/-- TSB (R337). -/
def execTsb (loc : Addr) (s : State) : Host.Outcome State Fault Refusal :=
  .next (rmw loc (tsbResult s.a) s)

/-- TRB (R338). -/
def execTrb (loc : Addr) (s : State) : Host.Outcome State Fault Refusal :=
  .next (rmw loc (trbResult s.a) s)

/-- RMB0 (R340). -/
def execRmb0 (zz : Byte) (s : State) : Host.Outcome State Fault Refusal :=
  .next (rmw (.zp zz) (rmbResult 0) s)

/-- RMB1 (R340). -/
def execRmb1 (zz : Byte) (s : State) : Host.Outcome State Fault Refusal :=
  .next (rmw (.zp zz) (rmbResult 1) s)

/-- RMB2 (R340). -/
def execRmb2 (zz : Byte) (s : State) : Host.Outcome State Fault Refusal :=
  .next (rmw (.zp zz) (rmbResult 2) s)

/-- RMB3 (R340). -/
def execRmb3 (zz : Byte) (s : State) : Host.Outcome State Fault Refusal :=
  .next (rmw (.zp zz) (rmbResult 3) s)

/-- RMB4 (R340). -/
def execRmb4 (zz : Byte) (s : State) : Host.Outcome State Fault Refusal :=
  .next (rmw (.zp zz) (rmbResult 4) s)

/-- RMB5 (R340). -/
def execRmb5 (zz : Byte) (s : State) : Host.Outcome State Fault Refusal :=
  .next (rmw (.zp zz) (rmbResult 5) s)

/-- RMB6 (R340). -/
def execRmb6 (zz : Byte) (s : State) : Host.Outcome State Fault Refusal :=
  .next (rmw (.zp zz) (rmbResult 6) s)

/-- RMB7 (R340). -/
def execRmb7 (zz : Byte) (s : State) : Host.Outcome State Fault Refusal :=
  .next (rmw (.zp zz) (rmbResult 7) s)

/-- SMB0 (R340). -/
def execSmb0 (zz : Byte) (s : State) : Host.Outcome State Fault Refusal :=
  .next (rmw (.zp zz) (smbResult 0) s)

/-- SMB1 (R340). -/
def execSmb1 (zz : Byte) (s : State) : Host.Outcome State Fault Refusal :=
  .next (rmw (.zp zz) (smbResult 1) s)

/-- SMB2 (R340). -/
def execSmb2 (zz : Byte) (s : State) : Host.Outcome State Fault Refusal :=
  .next (rmw (.zp zz) (smbResult 2) s)

/-- SMB3 (R340). -/
def execSmb3 (zz : Byte) (s : State) : Host.Outcome State Fault Refusal :=
  .next (rmw (.zp zz) (smbResult 3) s)

/-- SMB4 (R340). -/
def execSmb4 (zz : Byte) (s : State) : Host.Outcome State Fault Refusal :=
  .next (rmw (.zp zz) (smbResult 4) s)

/-- SMB5 (R340). -/
def execSmb5 (zz : Byte) (s : State) : Host.Outcome State Fault Refusal :=
  .next (rmw (.zp zz) (smbResult 5) s)

/-- SMB6 (R340). -/
def execSmb6 (zz : Byte) (s : State) : Host.Outcome State Fault Refusal :=
  .next (rmw (.zp zz) (smbResult 6) s)

/-- SMB7 (R340). -/
def execSmb7 (zz : Byte) (s : State) : Host.Outcome State Fault Refusal :=
  .next (rmw (.zp zz) (smbResult 7) s)

/-- BBR0 (R339). -/
def execBbr0 (zz d : Byte) (s : State) : Host.Outcome State Fault Refusal :=
  .next (branchOnBit 0 false zz d s)

/-- BBR1 (R339). -/
def execBbr1 (zz d : Byte) (s : State) : Host.Outcome State Fault Refusal :=
  .next (branchOnBit 1 false zz d s)

/-- BBR2 (R339). -/
def execBbr2 (zz d : Byte) (s : State) : Host.Outcome State Fault Refusal :=
  .next (branchOnBit 2 false zz d s)

/-- BBR3 (R339). -/
def execBbr3 (zz d : Byte) (s : State) : Host.Outcome State Fault Refusal :=
  .next (branchOnBit 3 false zz d s)

/-- BBR4 (R339). -/
def execBbr4 (zz d : Byte) (s : State) : Host.Outcome State Fault Refusal :=
  .next (branchOnBit 4 false zz d s)

/-- BBR5 (R339). -/
def execBbr5 (zz d : Byte) (s : State) : Host.Outcome State Fault Refusal :=
  .next (branchOnBit 5 false zz d s)

/-- BBR6 (R339). -/
def execBbr6 (zz d : Byte) (s : State) : Host.Outcome State Fault Refusal :=
  .next (branchOnBit 6 false zz d s)

/-- BBR7 (R339). -/
def execBbr7 (zz d : Byte) (s : State) : Host.Outcome State Fault Refusal :=
  .next (branchOnBit 7 false zz d s)

/-- BBS0 (R339). -/
def execBbs0 (zz d : Byte) (s : State) : Host.Outcome State Fault Refusal :=
  .next (branchOnBit 0 true zz d s)

/-- BBS1 (R339). -/
def execBbs1 (zz d : Byte) (s : State) : Host.Outcome State Fault Refusal :=
  .next (branchOnBit 1 true zz d s)

/-- BBS2 (R339). -/
def execBbs2 (zz d : Byte) (s : State) : Host.Outcome State Fault Refusal :=
  .next (branchOnBit 2 true zz d s)

/-- BBS3 (R339). -/
def execBbs3 (zz d : Byte) (s : State) : Host.Outcome State Fault Refusal :=
  .next (branchOnBit 3 true zz d s)

/-- BBS4 (R339). -/
def execBbs4 (zz d : Byte) (s : State) : Host.Outcome State Fault Refusal :=
  .next (branchOnBit 4 true zz d s)

/-- BBS5 (R339). -/
def execBbs5 (zz d : Byte) (s : State) : Host.Outcome State Fault Refusal :=
  .next (branchOnBit 5 true zz d s)

/-- BBS6 (R339). -/
def execBbs6 (zz d : Byte) (s : State) : Host.Outcome State Fault Refusal :=
  .next (branchOnBit 6 true zz d s)

/-- BBS7 (R339). -/
def execBbs7 (zz d : Byte) (s : State) : Host.Outcome State Fault Refusal :=
  .next (branchOnBit 7 true zz d s)

end Sys2Proof.Machine
end

