-- ==== Sys2Proof/Machine/FlagOps.lean ====
section
/-!
DEFINITION. Flag instructions, NOP, and the opcodes the core does not implement (spec R310-R319).
-/

namespace Sys2Proof.Machine

/-- CLC (R310). -/
def execClc (s : State) : Host.Outcome State Fault Refusal :=
  .next (s.setP { s.p with c := false })

/-- SEC (R311). -/
def execSec (s : State) : Host.Outcome State Fault Refusal :=
  .next (s.setP { s.p with c := true })

/-- CLI (R312). -/
def execCli (s : State) : Host.Outcome State Fault Refusal :=
  .next (s.setP { s.p with i := false })

/-- SEI (R313). -/
def execSei (s : State) : Host.Outcome State Fault Refusal :=
  .next (s.setP { s.p with i := true })

/-- CLV (R314). -/
def execClv (s : State) : Host.Outcome State Fault Refusal :=
  .next (s.setP { s.p with v := false })

/-- CLD (R315). -/
def execCld (s : State) : Host.Outcome State Fault Refusal :=
  .next (s.setP { s.p with d := false })

/-- SED (R316). -/
def execSed (s : State) : Host.Outcome State Fault Refusal :=
  .next (s.setP { s.p with d := true })

/-- NOP (R317): nothing but the fetch. -/
def execNop (s : State) : Host.Outcome State Fault Refusal :=
  .next s

/-- An unimplemented opcode (R318): nothing but the fetch of its one byte. -/
def execNopUndefined (_op : Byte) (s : State) : Host.Outcome State Fault Refusal :=
  .next s

/-- WAI (R319): always unimplemented, a one-byte NOP (D3). -/
def execWai (s : State) : Host.Outcome State Fault Refusal :=
  .next s

/-- STP (R319): always unimplemented, a one-byte NOP (D3). -/
def execStp (s : State) : Host.Outcome State Fault Refusal :=
  .next s

end Sys2Proof.Machine
end

