-- ==== Sys2Proof/Machine/LoadStore.lean ====
section
/-!
DEFINITION. Loads, stores and register transfers (spec R160-R171).
-/

namespace Sys2Proof.Machine

/-- LDA (R160). -/
def execLda (src : Src) (s : State) : Host.Outcome State Fault Refusal :=
  let m := load src s
  .next ((m.2.setA m.1).setNZ m.1)

/-- LDX (R161). -/
def execLdx (src : Src) (s : State) : Host.Outcome State Fault Refusal :=
  let m := load src s
  .next ((m.2.setX m.1).setNZ m.1)

/-- LDY (R162). -/
def execLdy (src : Src) (s : State) : Host.Outcome State Fault Refusal :=
  let m := load src s
  .next ((m.2.setY m.1).setNZ m.1)

/-- STA (R163): no flag changes. -/
def execSta (dst : Addr) (s : State) : Host.Outcome State Fault Refusal :=
  .next (store dst s.a s)

/-- STX (R164): no flag changes. -/
def execStx (dst : Addr) (s : State) : Host.Outcome State Fault Refusal :=
  .next (store dst s.x s)

/-- STY (R165): no flag changes. -/
def execSty (dst : Addr) (s : State) : Host.Outcome State Fault Refusal :=
  .next (store dst s.y s)

/-- TAX (R166). -/
def execTax (s : State) : Host.Outcome State Fault Refusal :=
  .next ((s.setX s.a).setNZ s.a)

/-- TAY (R167). -/
def execTay (s : State) : Host.Outcome State Fault Refusal :=
  .next ((s.setY s.a).setNZ s.a)

/-- TSX (R168). -/
def execTsx (s : State) : Host.Outcome State Fault Refusal :=
  .next ((s.setX s.sp).setNZ s.sp)

/-- TXA (R169). -/
def execTxa (s : State) : Host.Outcome State Fault Refusal :=
  .next ((s.setA s.x).setNZ s.x)

/-- TXS (R170): no flag changes. -/
def execTxs (s : State) : Host.Outcome State Fault Refusal :=
  .next (s.setSp s.x)

/-- TYA (R171). -/
def execTya (s : State) : Host.Outcome State Fault Refusal :=
  .next ((s.setA s.y).setNZ s.y)

end Sys2Proof.Machine
end

