-- ==== Sys2Proof/Machine/Shift.lean ====
section
/-!
DEFINITION. Shifts, rotates, increments and decrements (spec R250-R260, R335).
-/

namespace Sys2Proof.Machine

/-- ASL (R250). -/
def execAsl (loc : Loc) (s : State) : Host.Outcome State Fault Refusal :=
  .next (modifyLoc loc aslResult s)

/-- LSR (R251). -/
def execLsr (loc : Loc) (s : State) : Host.Outcome State Fault Refusal :=
  .next (modifyLoc loc lsrResult s)

/-- ROL (R252). -/
def execRol (loc : Loc) (s : State) : Host.Outcome State Fault Refusal :=
  .next (modifyLoc loc rolResult s)

/-- ROR (R253). -/
def execRor (loc : Loc) (s : State) : Host.Outcome State Fault Refusal :=
  .next (modifyLoc loc rorResult s)

/-- INC (R255) and INC A (R335). -/
def execInc (loc : Loc) (s : State) : Host.Outcome State Fault Refusal :=
  .next (modifyLoc loc incResult s)

/-- DEC (R256) and DEC A (R335). -/
def execDec (loc : Loc) (s : State) : Host.Outcome State Fault Refusal :=
  .next (modifyLoc loc decResult s)

/-- INX (R257). -/
def execInx (s : State) : Host.Outcome State Fault Refusal :=
  .next ((s.setX (s.x + 1)).setNZ (s.x + 1))

/-- DEX (R258). -/
def execDex (s : State) : Host.Outcome State Fault Refusal :=
  .next ((s.setX (s.x - 1)).setNZ (s.x - 1))

/-- INY (R259). -/
def execIny (s : State) : Host.Outcome State Fault Refusal :=
  .next ((s.setY (s.y + 1)).setNZ (s.y + 1))

/-- DEY (R260). -/
def execDey (s : State) : Host.Outcome State Fault Refusal :=
  .next ((s.setY (s.y - 1)).setNZ (s.y - 1))

end Sys2Proof.Machine
end

