-- ==== Sys2Proof/Machine/Stack.lean ====
section
/-!
DEFINITION. Stack instructions: the honoured four (spec R190-R193) and PHX, PHY, PLX, PLY (R332, R333).
-/

namespace Sys2Proof.Machine

/-- PHA (R190). -/
def execPha (s : State) : Host.Outcome State Fault Refusal :=
  .next (push s.a s)

/-- PHP (R191): bit 4 of the pushed byte is the parameter PHP_B (D6). -/
def execPhp (s : State) : Host.Outcome State Fault Refusal :=
  .next (push (s.p.toByte s.params.phpB) s)

/-- PLA (R192). -/
def execPla (s : State) : Host.Outcome State Fault Refusal :=
  let v := pop s
  .next ((v.2.setA v.1).setNZ v.1)

/-- PLP (R193): all six flags. -/
def execPlp (s : State) : Host.Outcome State Fault Refusal :=
  let v := pop s
  .next (v.2.setP (Flags.ofByte v.1))

/-- PHX (R332). -/
def execPhx (s : State) : Host.Outcome State Fault Refusal :=
  .next (push s.x s)

/-- PHY (R332). -/
def execPhy (s : State) : Host.Outcome State Fault Refusal :=
  .next (push s.y s)

/-- PLX (R333). -/
def execPlx (s : State) : Host.Outcome State Fault Refusal :=
  let v := pop s
  .next ((v.2.setX v.1).setNZ v.1)

/-- PLY (R333). -/
def execPly (s : State) : Host.Outcome State Fault Refusal :=
  let v := pop s
  .next ((v.2.setY v.1).setNZ v.1)

end Sys2Proof.Machine
end

