-- ==== Sys2Proof/Machine/Dispatch.lean ====
section
/-!
DEFINITION. The dispatch of spec R112: one arm per instruction, each one call of its meaning. The state an arm is given
is the one after the instruction's bytes have been fetched (log 7).
-/

namespace Sys2Proof.Machine

def exec (i : Instr) (s : State) : Host.Outcome State Fault Refusal :=
  match i with
  -- Loads and stores, R160-R165
  | .lda src => Sys2Proof.Machine.execLda src s
  | .ldx src => Sys2Proof.Machine.execLdx src s
  | .ldy src => Sys2Proof.Machine.execLdy src s
  | .sta dst => Sys2Proof.Machine.execSta dst s
  | .stx dst => Sys2Proof.Machine.execStx dst s
  | .sty dst => Sys2Proof.Machine.execSty dst s
  -- Register transfers, R166-R171
  | .tax => Sys2Proof.Machine.execTax s
  | .tay => Sys2Proof.Machine.execTay s
  | .tsx => Sys2Proof.Machine.execTsx s
  | .txa => Sys2Proof.Machine.execTxa s
  | .txs => Sys2Proof.Machine.execTxs s
  | .tya => Sys2Proof.Machine.execTya s
  -- Stack, R190-R193
  | .pha => Sys2Proof.Machine.execPha s
  | .php => Sys2Proof.Machine.execPhp s
  | .pla => Sys2Proof.Machine.execPla s
  | .plp => Sys2Proof.Machine.execPlp s
  -- Arithmetic, logic, compare, R210-R221
  | .adc src => Sys2Proof.Machine.execAdc src s
  | .sbc src => Sys2Proof.Machine.execSbc src s
  | .and src => Sys2Proof.Machine.execAnd src s
  | .ora src => Sys2Proof.Machine.execOra src s
  | .eor src => Sys2Proof.Machine.execEor src s
  | .bit src => Sys2Proof.Machine.execBit src s
  | .cmp src => Sys2Proof.Machine.execCmp src s
  | .cpx src => Sys2Proof.Machine.execCpx src s
  | .cpy src => Sys2Proof.Machine.execCpy src s
  -- Shifts, rotates, increments, decrements, R250-R260 (INC A and DEC A: R335)
  | .asl loc => Sys2Proof.Machine.execAsl loc s
  | .lsr loc => Sys2Proof.Machine.execLsr loc s
  | .rol loc => Sys2Proof.Machine.execRol loc s
  | .ror loc => Sys2Proof.Machine.execRor loc s
  | .inc loc => Sys2Proof.Machine.execInc loc s
  | .dec loc => Sys2Proof.Machine.execDec loc s
  | .inx => Sys2Proof.Machine.execInx s
  | .dex => Sys2Proof.Machine.execDex s
  | .iny => Sys2Proof.Machine.execIny s
  | .dey => Sys2Proof.Machine.execDey s
  -- Conditional branches, R280-R288
  | .bpl d => Sys2Proof.Machine.execBpl d s
  | .bmi d => Sys2Proof.Machine.execBmi d s
  | .bvc d => Sys2Proof.Machine.execBvc d s
  | .bvs d => Sys2Proof.Machine.execBvs d s
  | .bcc d => Sys2Proof.Machine.execBcc d s
  | .bcs d => Sys2Proof.Machine.execBcs d s
  | .bne d => Sys2Proof.Machine.execBne d s
  | .beq d => Sys2Proof.Machine.execBeq d s
  -- Jumps, subroutines, returns, BRK, R289-R294 (JMP (abs,X): R341)
  | .jmp target => Sys2Proof.Machine.execJmp target s
  | .jsr target => Sys2Proof.Machine.execJsr target s
  | .rts => Sys2Proof.Machine.execRts s
  | .rti => Sys2Proof.Machine.execRti s
  | .brk => Sys2Proof.Machine.execBrk s
  -- Flag instructions, R310-R316
  | .clc => Sys2Proof.Machine.execClc s
  | .sec => Sys2Proof.Machine.execSec s
  | .cli => Sys2Proof.Machine.execCli s
  | .sei => Sys2Proof.Machine.execSei s
  | .clv => Sys2Proof.Machine.execClv s
  | .cld => Sys2Proof.Machine.execCld s
  | .sed => Sys2Proof.Machine.execSed s
  -- NOP and the unimplemented opcodes, R317-R319
  | .nop => Sys2Proof.Machine.execNop s
  | .nopUndefined op => Sys2Proof.Machine.execNopUndefined op s
  | .wai => Sys2Proof.Machine.execWai s
  | .stp => Sys2Proof.Machine.execStp s
  -- 65C02 extensions, R331-R338
  | .bra d => Sys2Proof.Machine.execBra d s
  | .phx => Sys2Proof.Machine.execPhx s
  | .phy => Sys2Proof.Machine.execPhy s
  | .plx => Sys2Proof.Machine.execPlx s
  | .ply => Sys2Proof.Machine.execPly s
  | .stz dst => Sys2Proof.Machine.execStz dst s
  | .tsb loc => Sys2Proof.Machine.execTsb loc s
  | .trb loc => Sys2Proof.Machine.execTrb loc s
  -- Bit extensions, R339, R340
  | .rmb0 zz => Sys2Proof.Machine.execRmb0 zz s
  | .rmb1 zz => Sys2Proof.Machine.execRmb1 zz s
  | .rmb2 zz => Sys2Proof.Machine.execRmb2 zz s
  | .rmb3 zz => Sys2Proof.Machine.execRmb3 zz s
  | .rmb4 zz => Sys2Proof.Machine.execRmb4 zz s
  | .rmb5 zz => Sys2Proof.Machine.execRmb5 zz s
  | .rmb6 zz => Sys2Proof.Machine.execRmb6 zz s
  | .rmb7 zz => Sys2Proof.Machine.execRmb7 zz s
  | .smb0 zz => Sys2Proof.Machine.execSmb0 zz s
  | .smb1 zz => Sys2Proof.Machine.execSmb1 zz s
  | .smb2 zz => Sys2Proof.Machine.execSmb2 zz s
  | .smb3 zz => Sys2Proof.Machine.execSmb3 zz s
  | .smb4 zz => Sys2Proof.Machine.execSmb4 zz s
  | .smb5 zz => Sys2Proof.Machine.execSmb5 zz s
  | .smb6 zz => Sys2Proof.Machine.execSmb6 zz s
  | .smb7 zz => Sys2Proof.Machine.execSmb7 zz s
  | .bbr0 zz d => Sys2Proof.Machine.execBbr0 zz d s
  | .bbr1 zz d => Sys2Proof.Machine.execBbr1 zz d s
  | .bbr2 zz d => Sys2Proof.Machine.execBbr2 zz d s
  | .bbr3 zz d => Sys2Proof.Machine.execBbr3 zz d s
  | .bbr4 zz d => Sys2Proof.Machine.execBbr4 zz d s
  | .bbr5 zz d => Sys2Proof.Machine.execBbr5 zz d s
  | .bbr6 zz d => Sys2Proof.Machine.execBbr6 zz d s
  | .bbr7 zz d => Sys2Proof.Machine.execBbr7 zz d s
  | .bbs0 zz d => Sys2Proof.Machine.execBbs0 zz d s
  | .bbs1 zz d => Sys2Proof.Machine.execBbs1 zz d s
  | .bbs2 zz d => Sys2Proof.Machine.execBbs2 zz d s
  | .bbs3 zz d => Sys2Proof.Machine.execBbs3 zz d s
  | .bbs4 zz d => Sys2Proof.Machine.execBbs4 zz d s
  | .bbs5 zz d => Sys2Proof.Machine.execBbs5 zz d s
  | .bbs6 zz d => Sys2Proof.Machine.execBbs6 zz d s
  | .bbs7 zz d => Sys2Proof.Machine.execBbs7 zz d s

end Sys2Proof.Machine
end

