-- ==== Sys2Proof/WellFormed.lean ====
section
/-!
DEFINITION. Which operands an instruction has an encoding for (spec R87, R89, R90): the addressing modes of each
mnemonic in the opcode map, and the bytes the map leaves undefined.
-/

namespace Sys2Proof

/-- The 44 undefined bytes of R90. -/
def undefinedOpcodes : List Byte :=
  [0x02#8, 0x22#8, 0x42#8, 0x62#8, 0x82#8, 0xC2#8, 0xE2#8]
  ++ [0x03#8, 0x13#8, 0x23#8, 0x33#8, 0x43#8, 0x53#8, 0x63#8, 0x73#8]
  ++ [0x83#8, 0x93#8, 0xA3#8, 0xB3#8, 0xC3#8, 0xD3#8, 0xE3#8, 0xF3#8]
  ++ [0x0B#8, 0x1B#8, 0x2B#8, 0x3B#8, 0x4B#8, 0x5B#8, 0x6B#8, 0x7B#8]
  ++ [0x8B#8, 0x9B#8, 0xAB#8, 0xBB#8, 0xEB#8, 0xFB#8]
  ++ [0x44#8, 0x54#8, 0xD4#8, 0xF4#8, 0x5C#8, 0xDC#8, 0xFC#8]

/-- The memory modes of the eight accumulator operations (R87): every one but zp,Y. -/
def Addr.ofAccumulatorOp : Addr → Bool
  | .zpY _ => false
  | .zp _ | .zpX _ | .abs _ | .absX _ | .absY _ | .indX _ | .indY _ | .ind _ => true

/-- zp; zp,Y; abs; abs,Y: the memory modes of LDX (R87). -/
def Addr.ofLdx : Addr → Bool
  | .zp _ | .zpY _ | .abs _ | .absY _ => true
  | .zpX _ | .absX _ | .indX _ | .indY _ | .ind _ => false

/-- zp; zp,Y; abs: the modes of STX (R87, R88). -/
def Addr.ofStx : Addr → Bool
  | .zp _ | .zpY _ | .abs _ => true
  | .zpX _ | .absX _ | .absY _ | .indX _ | .indY _ | .ind _ => false

/-- zp; zp,X; abs: the modes of STY (R87). -/
def Addr.ofSty : Addr → Bool
  | .zp _ | .zpX _ | .abs _ => true
  | .zpY _ | .absX _ | .absY _ | .indX _ | .indY _ | .ind _ => false

/-- zp; zp,X; abs; abs,X: the memory modes of LDY, the shifts, INC, DEC, BIT and STZ (R87, R89). -/
def Addr.zpAbsX : Addr → Bool
  | .zp _ | .zpX _ | .abs _ | .absX _ => true
  | .zpY _ | .absY _ | .indX _ | .indY _ | .ind _ => false

/-- zp; abs: the memory modes of CPX, CPY, TSB and TRB (R87, R89). -/
def Addr.zpAbs : Addr → Bool
  | .zp _ | .abs _ => true
  | .zpX _ | .zpY _ | .absX _ | .absY _ | .indX _ | .indY _ | .ind _ => false

/-- An operand that is immediate or in memory in one of the given modes. -/
def Src.within (modes : Addr → Bool) : Src → Bool
  | .imm _ => true
  | .mem m => modes m

/-- A location that is A or in memory in one of the given modes. -/
def Loc.within (modes : Addr → Bool) : Loc → Bool
  | .acc => true
  | .mem m => modes m

/-- The instruction has an encoding in the opcode map (R86, R87, R89, R90). -/
def Instr.wellFormed : Instr → Bool
  | .lda s | .adc s | .sbc s | .and s | .ora s | .eor s | .cmp s => s.within Addr.ofAccumulatorOp
  | .ldx s => s.within Addr.ofLdx
  | .ldy s | .bit s => s.within Addr.zpAbsX
  | .cpx s | .cpy s => s.within Addr.zpAbs
  | .sta m => m.ofAccumulatorOp
  | .stx m => m.ofStx
  | .sty m => m.ofSty
  | .stz m => m.zpAbsX
  | .tsb m | .trb m => m.zpAbs
  | .asl l | .lsr l | .rol l | .ror l | .inc l | .dec l => l.within Addr.zpAbsX
  | .nopUndefined op => undefinedOpcodes.contains op
  | .tax | .tay | .tsx | .txa | .txs | .tya | .pha | .php | .pla | .plp => true
  | .inx | .dex | .iny | .dey | .rts | .rti | .brk => true
  | .bpl _ | .bmi _ | .bvc _ | .bvs _ | .bcc _ | .bcs _ | .bne _ | .beq _ | .bra _ => true
  | .jmp _ | .jsr _ => true
  | .clc | .sec | .cli | .sei | .clv | .cld | .sed | .nop | .wai | .stp => true
  | .phx | .phy | .plx | .ply => true
  | .rmb0 _ | .rmb1 _ | .rmb2 _ | .rmb3 _ | .rmb4 _ | .rmb5 _ | .rmb6 _ | .rmb7 _ => true
  | .smb0 _ | .smb1 _ | .smb2 _ | .smb3 _ | .smb4 _ | .smb5 _ | .smb6 _ | .smb7 _ => true
  | .bbr0 _ _ | .bbr1 _ _ | .bbr2 _ _ | .bbr3 _ _ | .bbr4 _ _ | .bbr5 _ _ | .bbr6 _ _ | .bbr7 _ _ => true
  | .bbs0 _ _ | .bbs1 _ _ | .bbs2 _ _ | .bbs3 _ _ | .bbs4 _ _ | .bbs5 _ _ | .bbs6 _ _ | .bbs7 _ _ => true

end Sys2Proof
end

