-- ==== Sys2Proof/Decode.lean ====
section
/-!
DEFINITION. Decoding (spec R80-R90, R113, R114): the opcode map of R86 row by row, the extension groups of R89, the
decoder of a list of bytes; and the encoder, written from the tables by mnemonic of R87 and R89.
-/

namespace Sys2Proof

open Sys2Proof.Machine (joinBytes lowByte highByte)

/-- What an opcode byte selects: the operation and mode, still without its operand bytes (R80, R81). -/
inductive Shape
  /-- format F1: no operand byte -/
  | bare (i : Instr)
  /-- formats F2i, F2z, F2r: one operand byte -/
  | byte (f : Byte → Instr)
  /-- format F3a: a 16-bit operand, low byte first -/
  | word (f : Word → Instr)
  /-- format F3zr: a zero-page address, then a displacement -/
  | zpRel (f : Byte → Byte → Instr)

/-- Why a list of bytes is no instruction. Every opcode byte decodes (R85, R113), so the list can only be too short. -/
inductive DecodeError
  | noOpcode
  | operandMissing (op : Byte)
  deriving DecidableEq, Repr

/-- Row 0x of the opcode map (R86). -/
def opcodeRow0 : List Shape :=
  [.bare .brk,
   .byte fun z => .ora (.mem (.indX z)),
   .bare (.nopUndefined 0x02#8),
   .bare (.nopUndefined 0x03#8),
   .byte fun z => .tsb (.zp z),
   .byte fun z => .ora (.mem (.zp z)),
   .byte fun z => .asl (.mem (.zp z)),
   .byte fun z => .rmb0 z,
   .bare .php,
   .byte fun v => .ora (.imm v),
   .bare (.asl .acc),
   .bare (.nopUndefined 0x0B#8),
   .word fun w => .tsb (.abs w),
   .word fun w => .ora (.mem (.abs w)),
   .word fun w => .asl (.mem (.abs w)),
   .zpRel fun z d => .bbr0 z d]

/-- Row 1x of the opcode map (R86). -/
def opcodeRow1 : List Shape :=
  [.byte fun d => .bpl d,
   .byte fun z => .ora (.mem (.indY z)),
   .byte fun z => .ora (.mem (.ind z)),
   .bare (.nopUndefined 0x13#8),
   .byte fun z => .trb (.zp z),
   .byte fun z => .ora (.mem (.zpX z)),
   .byte fun z => .asl (.mem (.zpX z)),
   .byte fun z => .rmb1 z,
   .bare .clc,
   .word fun w => .ora (.mem (.absY w)),
   .bare (.inc .acc),
   .bare (.nopUndefined 0x1B#8),
   .word fun w => .trb (.abs w),
   .word fun w => .ora (.mem (.absX w)),
   .word fun w => .asl (.mem (.absX w)),
   .zpRel fun z d => .bbr1 z d]

/-- Row 2x of the opcode map (R86). -/
def opcodeRow2 : List Shape :=
  [.word fun w => .jsr w,
   .byte fun z => .and (.mem (.indX z)),
   .bare (.nopUndefined 0x22#8),
   .bare (.nopUndefined 0x23#8),
   .byte fun z => .bit (.mem (.zp z)),
   .byte fun z => .and (.mem (.zp z)),
   .byte fun z => .rol (.mem (.zp z)),
   .byte fun z => .rmb2 z,
   .bare .plp,
   .byte fun v => .and (.imm v),
   .bare (.rol .acc),
   .bare (.nopUndefined 0x2B#8),
   .word fun w => .bit (.mem (.abs w)),
   .word fun w => .and (.mem (.abs w)),
   .word fun w => .rol (.mem (.abs w)),
   .zpRel fun z d => .bbr2 z d]

/-- Row 3x of the opcode map (R86). -/
def opcodeRow3 : List Shape :=
  [.byte fun d => .bmi d,
   .byte fun z => .and (.mem (.indY z)),
   .byte fun z => .and (.mem (.ind z)),
   .bare (.nopUndefined 0x33#8),
   .byte fun z => .bit (.mem (.zpX z)),
   .byte fun z => .and (.mem (.zpX z)),
   .byte fun z => .rol (.mem (.zpX z)),
   .byte fun z => .rmb3 z,
   .bare .sec,
   .word fun w => .and (.mem (.absY w)),
   .bare (.dec .acc),
   .bare (.nopUndefined 0x3B#8),
   .word fun w => .bit (.mem (.absX w)),
   .word fun w => .and (.mem (.absX w)),
   .word fun w => .rol (.mem (.absX w)),
   .zpRel fun z d => .bbr3 z d]

/-- Row 4x of the opcode map (R86). -/
def opcodeRow4 : List Shape :=
  [.bare .rti,
   .byte fun z => .eor (.mem (.indX z)),
   .bare (.nopUndefined 0x42#8),
   .bare (.nopUndefined 0x43#8),
   .bare (.nopUndefined 0x44#8),
   .byte fun z => .eor (.mem (.zp z)),
   .byte fun z => .lsr (.mem (.zp z)),
   .byte fun z => .rmb4 z,
   .bare .pha,
   .byte fun v => .eor (.imm v),
   .bare (.lsr .acc),
   .bare (.nopUndefined 0x4B#8),
   .word fun w => .jmp (.abs w),
   .word fun w => .eor (.mem (.abs w)),
   .word fun w => .lsr (.mem (.abs w)),
   .zpRel fun z d => .bbr4 z d]

/-- Row 5x of the opcode map (R86). -/
def opcodeRow5 : List Shape :=
  [.byte fun d => .bvc d,
   .byte fun z => .eor (.mem (.indY z)),
   .byte fun z => .eor (.mem (.ind z)),
   .bare (.nopUndefined 0x53#8),
   .bare (.nopUndefined 0x54#8),
   .byte fun z => .eor (.mem (.zpX z)),
   .byte fun z => .lsr (.mem (.zpX z)),
   .byte fun z => .rmb5 z,
   .bare .cli,
   .word fun w => .eor (.mem (.absY w)),
   .bare .phy,
   .bare (.nopUndefined 0x5B#8),
   .bare (.nopUndefined 0x5C#8),
   .word fun w => .eor (.mem (.absX w)),
   .word fun w => .lsr (.mem (.absX w)),
   .zpRel fun z d => .bbr5 z d]

/-- Row 6x of the opcode map (R86). -/
def opcodeRow6 : List Shape :=
  [.bare .rts,
   .byte fun z => .adc (.mem (.indX z)),
   .bare (.nopUndefined 0x62#8),
   .bare (.nopUndefined 0x63#8),
   .byte fun z => .stz (.zp z),
   .byte fun z => .adc (.mem (.zp z)),
   .byte fun z => .ror (.mem (.zp z)),
   .byte fun z => .rmb6 z,
   .bare .pla,
   .byte fun v => .adc (.imm v),
   .bare (.ror .acc),
   .bare (.nopUndefined 0x6B#8),
   .word fun w => .jmp (.ind w),
   .word fun w => .adc (.mem (.abs w)),
   .word fun w => .ror (.mem (.abs w)),
   .zpRel fun z d => .bbr6 z d]

/-- Row 7x of the opcode map (R86). -/
def opcodeRow7 : List Shape :=
  [.byte fun d => .bvs d,
   .byte fun z => .adc (.mem (.indY z)),
   .byte fun z => .adc (.mem (.ind z)),
   .bare (.nopUndefined 0x73#8),
   .byte fun z => .stz (.zpX z),
   .byte fun z => .adc (.mem (.zpX z)),
   .byte fun z => .ror (.mem (.zpX z)),
   .byte fun z => .rmb7 z,
   .bare .sei,
   .word fun w => .adc (.mem (.absY w)),
   .bare .ply,
   .bare (.nopUndefined 0x7B#8),
   .word fun w => .jmp (.indX w),
   .word fun w => .adc (.mem (.absX w)),
   .word fun w => .ror (.mem (.absX w)),
   .zpRel fun z d => .bbr7 z d]

/-- Row 8x of the opcode map (R86). -/
def opcodeRow8 : List Shape :=
  [.byte fun d => .bra d,
   .byte fun z => .sta (.indX z),
   .bare (.nopUndefined 0x82#8),
   .bare (.nopUndefined 0x83#8),
   .byte fun z => .sty (.zp z),
   .byte fun z => .sta (.zp z),
   .byte fun z => .stx (.zp z),
   .byte fun z => .smb0 z,
   .bare .dey,
   .byte fun v => .bit (.imm v),
   .bare .txa,
   .bare (.nopUndefined 0x8B#8),
   .word fun w => .sty (.abs w),
   .word fun w => .sta (.abs w),
   .word fun w => .stx (.abs w),
   .zpRel fun z d => .bbs0 z d]

/-- Row 9x of the opcode map (R86). -/
def opcodeRow9 : List Shape :=
  [.byte fun d => .bcc d,
   .byte fun z => .sta (.indY z),
   .byte fun z => .sta (.ind z),
   .bare (.nopUndefined 0x93#8),
   .byte fun z => .sty (.zpX z),
   .byte fun z => .sta (.zpX z),
   .byte fun z => .stx (.zpY z),
   .byte fun z => .smb1 z,
   .bare .tya,
   .word fun w => .sta (.absY w),
   .bare .txs,
   .bare (.nopUndefined 0x9B#8),
   .word fun w => .stz (.abs w),
   .word fun w => .sta (.absX w),
   .word fun w => .stz (.absX w),
   .zpRel fun z d => .bbs1 z d]

/-- Row Ax of the opcode map (R86). -/
def opcodeRowA : List Shape :=
  [.byte fun v => .ldy (.imm v),
   .byte fun z => .lda (.mem (.indX z)),
   .byte fun v => .ldx (.imm v),
   .bare (.nopUndefined 0xA3#8),
   .byte fun z => .ldy (.mem (.zp z)),
   .byte fun z => .lda (.mem (.zp z)),
   .byte fun z => .ldx (.mem (.zp z)),
   .byte fun z => .smb2 z,
   .bare .tay,
   .byte fun v => .lda (.imm v),
   .bare .tax,
   .bare (.nopUndefined 0xAB#8),
   .word fun w => .ldy (.mem (.abs w)),
   .word fun w => .lda (.mem (.abs w)),
   .word fun w => .ldx (.mem (.abs w)),
   .zpRel fun z d => .bbs2 z d]

/-- Row Bx of the opcode map (R86). -/
def opcodeRowB : List Shape :=
  [.byte fun d => .bcs d,
   .byte fun z => .lda (.mem (.indY z)),
   .byte fun z => .lda (.mem (.ind z)),
   .bare (.nopUndefined 0xB3#8),
   .byte fun z => .ldy (.mem (.zpX z)),
   .byte fun z => .lda (.mem (.zpX z)),
   .byte fun z => .ldx (.mem (.zpY z)),
   .byte fun z => .smb3 z,
   .bare .clv,
   .word fun w => .lda (.mem (.absY w)),
   .bare .tsx,
   .bare (.nopUndefined 0xBB#8),
   .word fun w => .ldy (.mem (.absX w)),
   .word fun w => .lda (.mem (.absX w)),
   .word fun w => .ldx (.mem (.absY w)),
   .zpRel fun z d => .bbs3 z d]

/-- Row Cx of the opcode map (R86). -/
def opcodeRowC : List Shape :=
  [.byte fun v => .cpy (.imm v),
   .byte fun z => .cmp (.mem (.indX z)),
   .bare (.nopUndefined 0xC2#8),
   .bare (.nopUndefined 0xC3#8),
   .byte fun z => .cpy (.mem (.zp z)),
   .byte fun z => .cmp (.mem (.zp z)),
   .byte fun z => .dec (.mem (.zp z)),
   .byte fun z => .smb4 z,
   .bare .iny,
   .byte fun v => .cmp (.imm v),
   .bare .dex,
   .bare .wai,
   .word fun w => .cpy (.mem (.abs w)),
   .word fun w => .cmp (.mem (.abs w)),
   .word fun w => .dec (.mem (.abs w)),
   .zpRel fun z d => .bbs4 z d]

/-- Row Dx of the opcode map (R86). -/
def opcodeRowD : List Shape :=
  [.byte fun d => .bne d,
   .byte fun z => .cmp (.mem (.indY z)),
   .byte fun z => .cmp (.mem (.ind z)),
   .bare (.nopUndefined 0xD3#8),
   .bare (.nopUndefined 0xD4#8),
   .byte fun z => .cmp (.mem (.zpX z)),
   .byte fun z => .dec (.mem (.zpX z)),
   .byte fun z => .smb5 z,
   .bare .cld,
   .word fun w => .cmp (.mem (.absY w)),
   .bare .phx,
   .bare .stp,
   .bare (.nopUndefined 0xDC#8),
   .word fun w => .cmp (.mem (.absX w)),
   .word fun w => .dec (.mem (.absX w)),
   .zpRel fun z d => .bbs5 z d]

/-- Row Ex of the opcode map (R86). -/
def opcodeRowE : List Shape :=
  [.byte fun v => .cpx (.imm v),
   .byte fun z => .sbc (.mem (.indX z)),
   .bare (.nopUndefined 0xE2#8),
   .bare (.nopUndefined 0xE3#8),
   .byte fun z => .cpx (.mem (.zp z)),
   .byte fun z => .sbc (.mem (.zp z)),
   .byte fun z => .inc (.mem (.zp z)),
   .byte fun z => .smb6 z,
   .bare .inx,
   .byte fun v => .sbc (.imm v),
   .bare .nop,
   .bare (.nopUndefined 0xEB#8),
   .word fun w => .cpx (.mem (.abs w)),
   .word fun w => .sbc (.mem (.abs w)),
   .word fun w => .inc (.mem (.abs w)),
   .zpRel fun z d => .bbs6 z d]

/-- Row Fx of the opcode map (R86). -/
def opcodeRowF : List Shape :=
  [.byte fun d => .beq d,
   .byte fun z => .sbc (.mem (.indY z)),
   .byte fun z => .sbc (.mem (.ind z)),
   .bare (.nopUndefined 0xF3#8),
   .bare (.nopUndefined 0xF4#8),
   .byte fun z => .sbc (.mem (.zpX z)),
   .byte fun z => .inc (.mem (.zpX z)),
   .byte fun z => .smb7 z,
   .bare .sed,
   .word fun w => .sbc (.mem (.absY w)),
   .bare .plx,
   .bare (.nopUndefined 0xFB#8),
   .bare (.nopUndefined 0xFC#8),
   .word fun w => .sbc (.mem (.absX w)),
   .word fun w => .inc (.mem (.absX w)),
   .zpRel fun z d => .bbs7 z d]

/-- The opcode map (R86): 16 rows by the high nibble. -/
def opcodeMap : List (List Shape) :=
  [opcodeRow0, opcodeRow1, opcodeRow2, opcodeRow3, opcodeRow4, opcodeRow5, opcodeRow6, opcodeRow7]
  ++ [opcodeRow8, opcodeRow9, opcodeRowA, opcodeRowB, opcodeRowC, opcodeRowD, opcodeRowE, opcodeRowF]

/-- `DECODE` of R113, total over 0x00-0xFF; it reads nothing but the byte. -/
def decodeOpcode (op : Byte) : Shape :=
  ((opcodeMap.getD (op.toNat / 16) []).getD (op.toNat % 16) (.bare (.nopUndefined op)))

/-- The extension group of an opcode byte (R89); `none` for the honoured and the unimplemented ones (R85). -/
def extensionOf (op : Byte) : Option Extension :=
  if op = 0x80#8 then some .bra
  else if [0xDA#8, 0x5A#8, 0xFA#8, 0x7A#8].contains op then some .xyStack
  else if [0x64#8, 0x74#8, 0x9C#8, 0x9E#8].contains op then some .stz
  else if [0x04#8, 0x0C#8, 0x14#8, 0x1C#8].contains op then some .tsbTrb
  else if [0x1A#8, 0x3A#8].contains op then some .incDecA
  else if [0x89#8, 0x34#8, 0x3C#8].contains op then some .bit
  else if op = 0x7C#8 then some .jmpIx
  else if op.toNat % 16 = 7 ∨ op.toNat % 16 = 15 then some .bitOps
  else none

/-- `implemented(op)` of R114. -/
def implemented (p : Params) (op : Byte) : Bool :=
  match extensionOf op with
  | some g => p.enabled g
  | none   => !(undefinedOpcodes.contains op || op == 0xCB#8 || op == 0xDB#8)

/-- The instruction at the head of a list of bytes, and the bytes after it (R80-R84). -/
def decode : List Byte → Except DecodeError (Instr × List Byte)
  | [] => .error .noOpcode
  | op :: rest =>
    match decodeOpcode op, rest with
    | .bare i,  rest           => .ok (i, rest)
    | .byte f,  b :: rest      => .ok (f b, rest)
    | .word f,  lo :: hi :: rest => .ok (f (joinBytes hi lo), rest)
    | .zpRel f, z :: d :: rest => .ok (f z d, rest)
    | .byte _,  []             => .error (.operandMissing op)
    | .word _,  _              => .error (.operandMissing op)
    | .zpRel _, _              => .error (.operandMissing op)

/-- The operand bytes of an address mode, low byte first (R81, R83). -/
def Addr.operandBytes : Addr → List Byte
  | .zp z | .zpX z | .zpY z | .indX z | .indY z | .ind z => [z]
  | .abs w | .absX w | .absY w => [lowByte w, highByte w]

def Src.operandBytes : Src → List Byte
  | .imm v => [v]
  | .mem m => m.operandBytes

def Loc.operandBytes : Loc → List Byte
  | .acc   => []
  | .mem m => m.operandBytes

def Target.operandBytes : Target → List Byte
  | .abs w | .ind w | .indX w => [lowByte w, highByte w]

/-- The opcode of each memory mode of one mnemonic, as a row of R87 or R89 lists them; `none` where the mnemonic has
no such mode. -/
structure AddrCodes where
  zp   : Option Byte := none
  zpX  : Option Byte := none
  zpY  : Option Byte := none
  abs  : Option Byte := none
  absX : Option Byte := none
  absY : Option Byte := none
  indX : Option Byte := none
  indY : Option Byte := none
  ind  : Option Byte := none

def AddrCodes.at (codes : AddrCodes) : Addr → Option Byte
  | .zp _   => codes.zp
  | .zpX _  => codes.zpX
  | .zpY _  => codes.zpY
  | .abs _  => codes.abs
  | .absX _ => codes.absX
  | .absY _ => codes.absY
  | .indX _ => codes.indX
  | .indY _ => codes.indY
  | .ind _  => codes.ind

/-- The opcode of a read instruction's operand: its immediate form's, or its memory mode's. -/
def Src.code (imm : Byte) (codes : AddrCodes) : Src → Option Byte
  | .imm _ => some imm
  | .mem m => codes.at m

/-- The opcode of a shift, INC or DEC: its accumulator form's, or its memory mode's. -/
def Loc.code (acc : Byte) (codes : AddrCodes) : Loc → Option Byte
  | .acc   => some acc
  | .mem m => codes.at m

/-- The opcode byte of an instruction, by mnemonic as R87, R89 and R90 list them; `none` for one that has no encoding. -/
def Instr.opcode : Instr → Option Byte
  | .lda o => o.code 0xA9#8
      { zp := some 0xA5#8, zpX := some 0xB5#8, abs := some 0xAD#8,
        absX := some 0xBD#8, absY := some 0xB9#8, indX := some 0xA1#8, indY := some 0xB1#8, ind := some 0xB2#8 }
  | .ldx o => o.code 0xA2#8 { zp := some 0xA6#8, zpY := some 0xB6#8, abs := some 0xAE#8, absY := some 0xBE#8 }
  | .ldy o => o.code 0xA0#8 { zp := some 0xA4#8, zpX := some 0xB4#8, abs := some 0xAC#8, absX := some 0xBC#8 }
  | .sta m => AddrCodes.at
      { zp := some 0x85#8, zpX := some 0x95#8, abs := some 0x8D#8,
        absX := some 0x9D#8, absY := some 0x99#8, indX := some 0x81#8, indY := some 0x91#8, ind := some 0x92#8 } m
  | .stx m => AddrCodes.at { zp := some 0x86#8, zpY := some 0x96#8, abs := some 0x8E#8 } m
  | .sty m => AddrCodes.at { zp := some 0x84#8, zpX := some 0x94#8, abs := some 0x8C#8 } m
  | .tax => some 0xAA#8
  | .tay => some 0xA8#8
  | .tsx => some 0xBA#8
  | .txa => some 0x8A#8
  | .txs => some 0x9A#8
  | .tya => some 0x98#8
  | .pha => some 0x48#8
  | .php => some 0x08#8
  | .pla => some 0x68#8
  | .plp => some 0x28#8
  | .adc o => o.code 0x69#8
      { zp := some 0x65#8, zpX := some 0x75#8, abs := some 0x6D#8,
        absX := some 0x7D#8, absY := some 0x79#8, indX := some 0x61#8, indY := some 0x71#8, ind := some 0x72#8 }
  | .sbc o => o.code 0xE9#8
      { zp := some 0xE5#8, zpX := some 0xF5#8, abs := some 0xED#8,
        absX := some 0xFD#8, absY := some 0xF9#8, indX := some 0xE1#8, indY := some 0xF1#8, ind := some 0xF2#8 }
  | .and o => o.code 0x29#8
      { zp := some 0x25#8, zpX := some 0x35#8, abs := some 0x2D#8,
        absX := some 0x3D#8, absY := some 0x39#8, indX := some 0x21#8, indY := some 0x31#8, ind := some 0x32#8 }
  | .ora o => o.code 0x09#8
      { zp := some 0x05#8, zpX := some 0x15#8, abs := some 0x0D#8,
        absX := some 0x1D#8, absY := some 0x19#8, indX := some 0x01#8, indY := some 0x11#8, ind := some 0x12#8 }
  | .eor o => o.code 0x49#8
      { zp := some 0x45#8, zpX := some 0x55#8, abs := some 0x4D#8,
        absX := some 0x5D#8, absY := some 0x59#8, indX := some 0x41#8, indY := some 0x51#8, ind := some 0x52#8 }
  | .bit o => o.code 0x89#8 { zp := some 0x24#8, zpX := some 0x34#8, abs := some 0x2C#8, absX := some 0x3C#8 }
  | .cmp o => o.code 0xC9#8
      { zp := some 0xC5#8, zpX := some 0xD5#8, abs := some 0xCD#8,
        absX := some 0xDD#8, absY := some 0xD9#8, indX := some 0xC1#8, indY := some 0xD1#8, ind := some 0xD2#8 }
  | .cpx o => o.code 0xE0#8 { zp := some 0xE4#8, abs := some 0xEC#8 }
  | .cpy o => o.code 0xC0#8 { zp := some 0xC4#8, abs := some 0xCC#8 }
  | .asl o => o.code 0x0A#8 { zp := some 0x06#8, zpX := some 0x16#8, abs := some 0x0E#8, absX := some 0x1E#8 }
  | .lsr o => o.code 0x4A#8 { zp := some 0x46#8, zpX := some 0x56#8, abs := some 0x4E#8, absX := some 0x5E#8 }
  | .rol o => o.code 0x2A#8 { zp := some 0x26#8, zpX := some 0x36#8, abs := some 0x2E#8, absX := some 0x3E#8 }
  | .ror o => o.code 0x6A#8 { zp := some 0x66#8, zpX := some 0x76#8, abs := some 0x6E#8, absX := some 0x7E#8 }
  | .inc o => o.code 0x1A#8 { zp := some 0xE6#8, zpX := some 0xF6#8, abs := some 0xEE#8, absX := some 0xFE#8 }
  | .dec o => o.code 0x3A#8 { zp := some 0xC6#8, zpX := some 0xD6#8, abs := some 0xCE#8, absX := some 0xDE#8 }
  | .inx => some 0xE8#8
  | .dex => some 0xCA#8
  | .iny => some 0xC8#8
  | .dey => some 0x88#8
  | .bpl _ => some 0x10#8
  | .bmi _ => some 0x30#8
  | .bvc _ => some 0x50#8
  | .bvs _ => some 0x70#8
  | .bcc _ => some 0x90#8
  | .bcs _ => some 0xB0#8
  | .bne _ => some 0xD0#8
  | .beq _ => some 0xF0#8
  | .jmp (.abs _) => some 0x4C#8
  | .jmp (.ind _) => some 0x6C#8
  | .jmp (.indX _) => some 0x7C#8
  | .jsr _ => some 0x20#8
  | .rts => some 0x60#8
  | .rti => some 0x40#8
  | .brk => some 0x00#8
  | .clc => some 0x18#8
  | .sec => some 0x38#8
  | .cli => some 0x58#8
  | .sei => some 0x78#8
  | .clv => some 0xB8#8
  | .cld => some 0xD8#8
  | .sed => some 0xF8#8
  | .nop => some 0xEA#8
  | .nopUndefined op => if undefinedOpcodes.contains op then some op else none
  | .wai => some 0xCB#8
  | .stp => some 0xDB#8
  | .bra _ => some 0x80#8
  | .phx => some 0xDA#8
  | .phy => some 0x5A#8
  | .plx => some 0xFA#8
  | .ply => some 0x7A#8
  | .stz m => AddrCodes.at { zp := some 0x64#8, zpX := some 0x74#8, abs := some 0x9C#8, absX := some 0x9E#8 } m
  | .tsb m => AddrCodes.at { zp := some 0x04#8, abs := some 0x0C#8 } m
  | .trb m => AddrCodes.at { zp := some 0x14#8, abs := some 0x1C#8 } m
  | .rmb0 _ => some 0x07#8
  | .rmb1 _ => some 0x17#8
  | .rmb2 _ => some 0x27#8
  | .rmb3 _ => some 0x37#8
  | .rmb4 _ => some 0x47#8
  | .rmb5 _ => some 0x57#8
  | .rmb6 _ => some 0x67#8
  | .rmb7 _ => some 0x77#8
  | .smb0 _ => some 0x87#8
  | .smb1 _ => some 0x97#8
  | .smb2 _ => some 0xA7#8
  | .smb3 _ => some 0xB7#8
  | .smb4 _ => some 0xC7#8
  | .smb5 _ => some 0xD7#8
  | .smb6 _ => some 0xE7#8
  | .smb7 _ => some 0xF7#8
  | .bbr0 _ _ => some 0x0F#8
  | .bbr1 _ _ => some 0x1F#8
  | .bbr2 _ _ => some 0x2F#8
  | .bbr3 _ _ => some 0x3F#8
  | .bbr4 _ _ => some 0x4F#8
  | .bbr5 _ _ => some 0x5F#8
  | .bbr6 _ _ => some 0x6F#8
  | .bbr7 _ _ => some 0x7F#8
  | .bbs0 _ _ => some 0x8F#8
  | .bbs1 _ _ => some 0x9F#8
  | .bbs2 _ _ => some 0xAF#8
  | .bbs3 _ _ => some 0xBF#8
  | .bbs4 _ _ => some 0xCF#8
  | .bbs5 _ _ => some 0xDF#8
  | .bbs6 _ _ => some 0xEF#8
  | .bbs7 _ _ => some 0xFF#8

/-- The operand bytes of an instruction in the order of R81 and R84. -/
def Instr.operandBytes : Instr → List Byte
  | .lda s | .ldx s | .ldy s | .adc s | .sbc s | .and s | .ora s | .eor s | .bit s | .cmp s | .cpx s | .cpy s => s.operandBytes
  | .sta m | .stx m | .sty m | .stz m | .tsb m | .trb m => m.operandBytes
  | .asl l | .lsr l | .rol l | .ror l | .inc l | .dec l => l.operandBytes
  | .tax | .tay | .tsx | .txa | .txs | .tya | .pha | .php | .pla | .plp | .inx | .dex | .iny | .dey => []
  | .bpl d | .bmi d | .bvc d | .bvs d | .bcc d | .bcs d | .bne d | .beq d | .bra d => [d]
  | .jmp t => t.operandBytes
  | .jsr w => [lowByte w, highByte w]
  | .rts | .rti | .brk | .clc | .sec | .cli | .sei | .clv | .cld | .sed | .nop | .nopUndefined _ | .wai | .stp => []
  | .phx | .phy | .plx | .ply => []
  | .rmb0 z | .rmb1 z | .rmb2 z | .rmb3 z | .rmb4 z | .rmb5 z | .rmb6 z | .rmb7 z => [z]
  | .smb0 z | .smb1 z | .smb2 z | .smb3 z | .smb4 z | .smb5 z | .smb6 z | .smb7 z => [z]
  | .bbr0 z d | .bbr1 z d | .bbr2 z d | .bbr3 z d | .bbr4 z d | .bbr5 z d | .bbr6 z d | .bbr7 z d => [z, d]
  | .bbs0 z d | .bbs1 z d | .bbs2 z d | .bbs3 z d | .bbs4 z d | .bbs5 z d | .bbs6 z d | .bbs7 z d => [z, d]

/-- The bytes of an instruction, opcode first; `none` for one that has no encoding. -/
def encode (i : Instr) : Option (List Byte) :=
  i.opcode.map (· :: i.operandBytes)

/-- How many bytes an instruction's fetch consumes (R82): BRK's padding byte is not fetched. -/
def Instr.length (i : Instr) : Nat := 1 + i.operandBytes.length

/-- The `k`-th byte of an opcode-table word: bit 0 of the word is the opcode's bit 0, every bit above `nbits` is 0. -/
def tableWordByte (nbits w k : Nat) : Byte := BitVec.ofNat 8 (w % 2 ^ nbits / 2 ^ (8 * k))

/-- The instruction the decoder reads from an opcode-table word. -/
def decodeTableWord (nbits w : Nat) : Option Instr :=
  match decode [tableWordByte nbits w 0, tableWordByte nbits w 1, tableWordByte nbits w 2] with
  | .ok (i, _) => some i
  | .error _   => none

end Sys2Proof
end

