-- ==== Sys2Proof/Machine/Fetch.lean ====
section
/-!
DEFINITION. Opcode fetch, decode and operand fetch (spec R112, R84, R115 phase 1), and placing an instruction where
the next fetch finds it.
-/

namespace Sys2Proof.Machine

/-- The operand bytes an opcode asks for, by `fetch8` in order (R84). -/
def fetchOperands (sh : Shape) (s : State) : Instr × State :=
  match sh with
  | .bare i => (i, s)
  | .byte f =>
    let b := fetch8 s
    (f b.1, b.2)
  | .word f =>
    let w := fetch16 s
    (f w.1, w.2)
  | .zpRel f =>
    let z := fetch8 s
    let d := fetch8 z.2
    (f z.1 d.1, d.2)

/-- The opcode belongs to an extension group whose parameter is false (R114, R330). -/
def switchedOff (p : Params) (op : Byte) : Bool :=
  match extensionOf op with
  | some g => !p.enabled g
  | none   => false

/-- Fetch and decode one instruction (R112). A switched-off extension opcode fetches no operand byte and is an
unimplemented opcode (R318, R330). -/
def fetchInstr (s : State) : Instr × State :=
  let op := fetch8 s
  if switchedOff op.2.params op.1 then (.nopUndefined op.1, op.2)
  else fetchOperands (decodeOpcode op.1) op.2

/-- The parameters under which an opcode byte is not switched off. -/
def enablingOpcode (p : Params) (op : Byte) : Params :=
  match extensionOf op with
  | some g => p.enabling g
  | none   => p

/-- `s` with three bytes at PC, PC + 1, PC + 2 as plain RAM, the first one's extension group on, running, and with no
serviceable interrupt (log 9). -/
def placeInstruction (b0 b1 b2 : Byte) (s : State) : State :=
  { s with
    mem     := ((s.mem.write s.pc.toNat b0).write (s.pc + 1).toNat b1).write (s.pc + 2).toNat b2
    windows := s.windows.filter fun w => !(w.covers s.pc || w.covers (s.pc + 1) || w.covers (s.pc + 2))
    params  := enablingOpcode s.params b0
    halted  := false
    latch   := { nmi := false, irq := s.latch.irq && s.p.i } }

end Sys2Proof.Machine
end

