-- ==== Sys2Proof/Machine/Step.lean ====
section
/-!
DEFINITION. The step procedure (spec R110, R112) and the loading of one instruction where the next step fetches it.
-/

namespace Sys2Proof.Machine

/-- `execute_one()` (R112). -/
def executeOne (s : State) : Host.Outcome State Fault Refusal :=
  exec (fetchInstr s).1 (fetchInstr s).2

/-- Phase 1 of R110: one interrupt entry, or one instruction, or nothing when halted (R118). -/
def unitOfWork (s : State) : Host.Outcome State Fault Refusal :=
  match s.serviceable with
  | some src => .next (enterInterrupt src s)
  | none     => if s.halted then .next s else executeOne s

/-- `step()` (R110): phase 1, then the cycle accounting and the bus clock. The value returned is in `returned`. -/
def step (s : State) : Host.Outcome State Fault Refusal :=
  match unitOfWork (beginStep s) with
  | .next t    => .next (clockBus t)
  | .fault r   => .fault r
  | .refused r => .refused r

/-- `s` with an instruction of the opcode table where `step` fetches next (log 9). -/
def State.withFetchWord (s : State) (nbits w : Nat) : State :=
  placeInstruction (tableWordByte nbits w 0) (tableWordByte nbits w 1) (tableWordByte nbits w 2) s

end Sys2Proof.Machine
end

