-- ==== Sys2Proof/Machine/HostCalls.lean ====
section
/-!
DEFINITION. The host's calls (spec R435), each made between steps (R122): construction (R450), reset (R452), the latch
setters (R402) and the halt assertion (R425).
-/

namespace Sys2Proof.Machine

/-- `vecread(a)` (R450): two bus reads, low byte first, counted only under RESET_READS_COUNTED (D8). -/
def vectorRead (a : Word) (s : State) : Word × State :=
  if s.params.resetReadsCounted then read16 a s
  else
    let lo := busRead a s
    let hi := busRead (a + 1) lo.2
    (joinBytes hi.1 lo.1, hi.2)

/-- `new(bus)` (R450), on a bus that holds `mem`, with devices at `windows` and the coming clock answers `answers`. -/
def newCore (params : Params) (mem : Memory) (windows : List Window) (answers : List ClockAnswer) : State :=
  let fresh : State :=
    { a := 0x00#8, x := 0x00#8, y := 0x00#8, sp := 0xFF#8, pc := 0x0000#16
      p := { n := false, v := false, d := false, i := true, z := false, c := false }
      cycles := 0#32, latch := { nmi := false, irq := false }, halted := false, params := params
      mem := mem, windows := windows, deviceReads := 0, clockAnswers := answers, accesses := [], returned := 0#32 }
  let v := vectorRead resetVector fresh
  v.2.setPc v.1

/-- `reset()` (R452): SP, I, halted and PC; everything else is as before (D12). -/
def hostReset (s : State) : State :=
  let v := vectorRead resetVector { s with sp := 0xFD#8, p := { s.p with i := true }, halted := false }
  v.2.setPc v.1

/-- `request_irq()` (R402). -/
def requestIrq (s : State) : State := s.setLatch { s.latch with irq := true }

/-- `request_nmi()` (R402). -/
def requestNmi (s : State) : State := s.setLatch { s.latch with nmi := true }

/-- `assert_halt()` (R425, D10). -/
def assertHalt (s : State) : State := { s with halted := true }

/-- The calls a host makes on a constructed core, one at a time (R122, R435). -/
inductive HostCall
  | reset
  | step
  | requestIrq
  | requestNmi
  | assertHalt
  deriving DecidableEq, Repr

/-- One host call. -/
def hostCall (c : HostCall) (s : State) : Host.Outcome State Fault Refusal :=
  match c with
  | .reset      => .next (hostReset s)
  | .step       => step s
  | .requestIrq => .next (requestIrq s)
  | .requestNmi => .next (requestNmi s)
  | .assertHalt => .next (assertHalt s)

end Sys2Proof.Machine
end

