-- ==== Sys2Proof/Safety.lean ====
section
/-!
DEFINITION. The terms the claims use: the invariant, what a bus access changes and leaves alone, the frames of loads,
stores and handler entries, the effective address of a mode on RAM, and the tick table of spec R462.
-/

namespace Sys2Proof.Machine

/-- The invariant of the model: memory is in its canonical form, inside the 16-bit address space (R52). -/
def State.Inv (s : State) : Prop := s.mem.wf = true

/-- The address is plain RAM: no device answers for it (R51, D14). -/
def State.isRam (s : State) (a : Word) : Prop := s.isDevice a = false

def BusAccess.addr : BusAccess → Word
  | .read a _  => a
  | .write a _ => a

def BusAccess.isRead : BusAccess → Bool
  | .read _ _  => true
  | .write _ _ => false

/-- The accesses of a state's record that write to an address. -/
def BusAccess.writesTo (a : Nat) : BusAccess → Bool
  | .read _ _  => false
  | .write b _ => b.toNat == a

/-- `t` is `s` after exactly the accesses `l`: they are appended to the record in order, each counts one tick (R13),
and nothing else changes but the platform's own device-read counter. -/
def AfterReads (l : List BusAccess) (s t : State) : Prop :=
  (∀ x ∈ l, x.isRead = true)
    ∧ t = { s with
        cycles      := s.cycles + BitVec.ofNat 32 l.length
        accesses    := s.accesses ++ l
        deviceReads := t.deviceReads }

/-- `t` is `s` after one write of `v` to `ea` and nothing else: in RAM that byte becomes `v`, a device keeps it to
itself, and every other byte reads as before. -/
def AfterWrite (ea : Word) (v : Byte) (s t : State) : Prop :=
  t = { s with cycles := s.cycles + 1, accesses := s.accesses ++ [.write ea v], mem := t.mem }
    ∧ (∀ a, a ≠ ea.toNat → t.mem.read a = s.mem.read a)
    ∧ t.mem.read ea.toNat = if s.isDevice ea then s.mem.read ea.toNat else v

/-- `t` is `s` after exactly the reads `l` and then one write of `v` to `ea`, and nothing else. -/
def StoresByte (l : List BusAccess) (ea : Word) (v : Byte) (s t : State) : Prop :=
  ∃ u, AfterReads l s u ∧ AfterWrite ea v u t

/-- The byte a recorded read of a RAM address returns is the byte memory holds there. -/
def ReadsRam (s : State) (a : Word) (v : Byte) : Prop := s.isRam a → v = s.mem.read a.toNat

/-- What taking an entry does (R294, R406, R408), with return address `ret`, `b` in bit 4 of the pushed P, and the
handler's address read from `vector`, an address outside page 1. -/
def EntersHandler (b : Bool) (ret vector : Word) (s t : State) : Prop :=
  (∃ lo hi : Byte,
      t = { s with
          sp          := s.sp - 3
          pc          := joinBytes hi lo
          p           := { s.p with i := true, d := false }
          cycles      := s.cycles + 5
          mem         := t.mem
          deviceReads := t.deviceReads
          accesses    := s.accesses ++
            [.write (stackAddr s.sp) (highByte ret), .write (stackAddr (s.sp - 1)) (lowByte ret),
             .write (stackAddr (s.sp - 2)) (s.p.toByte b), .read vector lo, .read (vector + 1) hi] }
        ∧ ReadsRam s vector lo ∧ ReadsRam s (vector + 1) hi)
    ∧ (∀ a : Nat, a ≠ (stackAddr s.sp).toNat → a ≠ (stackAddr (s.sp - 1)).toNat → a ≠ (stackAddr (s.sp - 2)).toNat →
        t.mem.read a = s.mem.read a)
    ∧ (s.isRam (stackAddr s.sp) → t.mem.read (stackAddr s.sp).toNat = highByte ret)
    ∧ (s.isRam (stackAddr (s.sp - 1)) → t.mem.read (stackAddr (s.sp - 1)).toNat = lowByte ret)
    ∧ (s.isRam (stackAddr (s.sp - 2)) → t.mem.read (stackAddr (s.sp - 2)).toNat = s.p.toByte b)

/-- The zero-page pointer a mode reads, if it reads one (R143-R145). -/
def zeroPagePointer (m : Addr) (s : State) : Option Byte :=
  match m with
  | .indX z => some (z + s.x)
  | .indY z => some z
  | .ind z  => some z
  | .zp _ | .zpX _ | .zpY _ | .abs _ | .absX _ | .absY _ => none

/-- The record of reading `aLo` and then `aHi`, each with the byte the bus answers at that moment (R60, R62). -/
def pairReads (aLo aHi : Word) (s : State) : List BusAccess :=
  [.read aLo (memRead aLo s).1, .read aHi (memRead aHi (memRead aLo s).2).1]

/-- The pointer reads of a mode in order: none, or the two bytes of its zero-page pointer, the low one first and the
second address wrapping in the zero page (R53, R143-R145). -/
def pointerReads (m : Addr) (s : State) : List BusAccess :=
  match zeroPagePointer m s with
  | some z => pairReads (zeroPageAddr z) (zeroPageAddr (z + 1)) s
  | none   => []

/-- The reads `load` makes in order: none of an immediate (log 7); else those of the pointer, then one of the effective
address, which returns the operand (R131). -/
def loadReads (src : Src) (s : State) : List BusAccess :=
  match src with
  | .imm _ => []
  | .mem m => pointerReads m s ++ [.read (resolve m s).1 (load (.mem m) s).1]

/-- The pointer reads of JMP in order (R289, R290, R341): none, or two that wrap at 0xFFFF. -/
def targetReads (t : Target) (s : State) : List BusAccess :=
  match t with
  | .abs _  => []
  | .ind w  => pairReads w (w + 1) s
  | .indX w => pairReads (w + zeroExtend16 s.x) (w + zeroExtend16 s.x + 1) s

/-- `setNZ(v)` in the spec's own terms (R12): N is bit 7 of `v`, Z says that `v` is 0; no other flag changes. -/
def flagsNZ (f : Flags) (v : Byte) : Flags := { f with n := v.getLsbD 7, z := decide (v.toNat = 0) }

/-- What a read-modify-write operation `f` does in both its forms (R131, R254): in A, or by the pointer reads of the
mode, one read of the effective address and then one write of it. -/
def Modifies (loc : Loc) (f : Byte → Flags → Byte × Flags) (s t : State) : Prop :=
  match loc with
  | .acc   => t = { s with a := (f s.a s.p).1, p := (f s.a s.p).2 }
  | .mem m =>
    StoresByte (loadReads (.mem m) s) (resolve m s).1 (f (load (.mem m) s).1 s.p).1
      { s with p := (f (load (.mem m) s).1 s.p).2 } t

/-- `PC + sext_16(d)` modulo 65536 (R146). -/
def branchTarget (pc : Word) (d : Byte) : Word := BitVec.ofInt 16 (pc.toNat + d.toInt)

/-- The 16-bit value of a zero-page pointer in RAM: the second byte's address wraps in the zero page (R53). -/
def pointerInRam (mem : Memory) (z : Byte) : Word :=
  joinBytes (mem.read (z + 1).toNat) (mem.read z.toNat)

/-- The effective address of a mode as R136-R145 tabulate it, its pointers being in RAM. -/
def effectiveAddress (m : Addr) (s : State) : Word :=
  match m with
  | .zp z   => BitVec.ofNat 16 z.toNat
  | .zpX z  => BitVec.ofNat 16 ((z.toNat + s.x.toNat) % 256)
  | .zpY z  => BitVec.ofNat 16 ((z.toNat + s.y.toNat) % 256)
  | .abs w  => w
  | .absX w => BitVec.ofNat 16 (w.toNat + s.x.toNat)
  | .absY w => BitVec.ofNat 16 (w.toNat + s.y.toNat)
  | .indX z => pointerInRam s.mem (z + s.x)
  | .indY z => BitVec.ofNat 16 ((pointerInRam s.mem z).toNat + s.y.toNat)
  | .ind z  => pointerInRam s.mem z

/-- The pointer bytes of a mode are plain RAM. -/
def pointerIsRam (m : Addr) (s : State) : Prop :=
  ∀ z, zeroPagePointer m s = some z → s.isRam (zeroPageAddr z) ∧ s.isRam (zeroPageAddr (z + 1))

/-- Accesses of a read instruction or a store by mode, the opcode fetch included (R149, R462). -/
def addrTicks : Addr → Nat
  | .zp _ | .zpX _ | .zpY _ => 3
  | .abs _ | .absX _ | .absY _ => 4
  | .indX _ | .indY _ | .ind _ => 5

def srcTicks : Src → Nat
  | .imm _ => 2
  | .mem m => addrTicks m

/-- Accesses of a read-modify-write instruction: one more than a load (R149). -/
def locTicks : Loc → Nat
  | .acc   => 1
  | .mem m => addrTicks m + 1

def targetTicks : Target → Nat
  | .abs _  => 3
  | .ind _  => 5
  | .indX _ => 5

/-- Bus accesses of an instruction's step (R462). -/
def instrTicks : Instr → Nat
  | .lda o | .ldx o | .ldy o | .adc o | .sbc o | .and o | .ora o | .eor o | .bit o | .cmp o | .cpx o | .cpy o => srcTicks o
  | .sta m | .stx m | .sty m | .stz m => addrTicks m
  | .tsb m | .trb m => addrTicks m + 1
  | .asl l | .lsr l | .rol l | .ror l | .inc l | .dec l => locTicks l
  | .tax | .tay | .tsx | .txa | .txs | .tya | .inx | .dex | .iny | .dey => 1
  | .clc | .sec | .cli | .sei | .clv | .cld | .sed | .nop | .nopUndefined _ | .wai | .stp => 1
  | .pha | .php | .pla | .plp | .phx | .phy | .plx | .ply => 2
  | .bpl _ | .bmi _ | .bvc _ | .bvs _ | .bcc _ | .bcs _ | .bne _ | .beq _ | .bra _ => 2
  | .jmp t => targetTicks t
  | .jsr _ => 5
  | .rts => 3
  | .rti => 4
  | .brk => 6
  | .rmb0 _ | .rmb1 _ | .rmb2 _ | .rmb3 _ | .rmb4 _ | .rmb5 _ | .rmb6 _ | .rmb7 _ => 4
  | .smb0 _ | .smb1 _ | .smb2 _ | .smb3 _ | .smb4 _ | .smb5 _ | .smb6 _ | .smb7 _ => 4
  | .bbr0 _ _ | .bbr1 _ _ | .bbr2 _ _ | .bbr3 _ _ | .bbr4 _ _ | .bbr5 _ _ | .bbr6 _ _ | .bbr7 _ _ => 4
  | .bbs0 _ _ | .bbs1 _ _ | .bbs2 _ _ | .bbs3 _ _ | .bbs4 _ _ | .bbs5 _ _ | .bbs6 _ _ | .bbs7 _ _ => 4

/-- The three bytes from PC on, in RAM: as many as the longest instruction has (R82). -/
def bytesAtPc (s : State) : List Byte :=
  [s.mem.read s.pc.toNat, s.mem.read (s.pc + 1).toNat, s.mem.read (s.pc + 2).toNat]

/-- `s` after a step has fetched `n` bytes at PC from RAM: PC past them, one tick and one recorded read each (R112). -/
def afterFetch (n : Nat) (s : State) : State :=
  { s with
    pc       := s.pc + BitVec.ofNat 16 n
    cycles   := s.cycles + BitVec.ofNat 32 n
    accesses := ([s.pc, s.pc + 1, s.pc + 2].take n).map fun a => .read a (s.mem.read a.toNat) }

/-- The bytes a step may fetch are plain RAM. -/
def codeIsRam (s : State) : Prop := s.isRam s.pc ∧ s.isRam (s.pc + 1) ∧ s.isRam (s.pc + 2)

/-- The three bytes an entry pushes on, or RTI pops after it, are plain RAM. -/
def stackTopIsRam (s : State) : Prop :=
  s.isRam (stackAddr s.sp) ∧ s.isRam (stackAddr (s.sp - 1)) ∧ s.isRam (stackAddr (s.sp - 2))

/-- End a step on its outcome: the tick accounting and the bus clock follow only a next state (R110). -/
def endStep : Host.Outcome State Fault Refusal → Host.Outcome State Fault Refusal
  | .next t    => .next (clockBus t)
  | .fault r   => .fault r
  | .refused r => .refused r

/-! ## Which instructions may write what (R21-R23, R26, R27, R30, R59) -/

/-- Instructions that write A (R21; INC and DEC in their accumulator form, R335). -/
def writesA : Instr → Bool
  | .lda _ | .txa | .tya | .pla | .adc _ | .sbc _ | .and _ | .ora _ | .eor _ => true
  | .asl .acc | .lsr .acc | .rol .acc | .ror .acc | .inc .acc | .dec .acc => true
  | _ => false

/-- Instructions that write X (R22). -/
def writesX : Instr → Bool
  | .ldx _ | .inx | .dex | .tax | .tsx | .plx => true
  | _ => false

/-- Instructions that write Y (R22). -/
def writesY : Instr → Bool
  | .ldy _ | .iny | .dey | .tay | .ply => true
  | _ => false

/-- Instructions that write SP (R23). -/
def writesSp : Instr → Bool
  | .txs | .pha | .php | .pla | .plp | .jsr _ | .rts | .rti | .brk | .phx | .phy | .plx | .ply => true
  | _ => false

/-- Instructions that store to memory (R131, R23). -/
def storesToMemory : Instr → Bool
  | .sta _ | .stx _ | .sty _ | .stz _ | .tsb _ | .trb _ => true
  | .asl (.mem _) | .lsr (.mem _) | .rol (.mem _) | .ror (.mem _) | .inc (.mem _) | .dec (.mem _) => true
  | .pha | .php | .phx | .phy | .jsr _ | .brk => true
  | .rmb0 _ | .rmb1 _ | .rmb2 _ | .rmb3 _ | .rmb4 _ | .rmb5 _ | .rmb6 _ | .rmb7 _ => true
  | .smb0 _ | .smb1 _ | .smb2 _ | .smb3 _ | .smb4 _ | .smb5 _ | .smb6 _ | .smb7 _ => true
  | _ => false

/-- Instructions that restore all of P (R25). -/
def restoresP : Instr → Bool
  | .plp | .rti => true
  | _ => false

/-- Instructions that write C (R26). -/
def writesC (i : Instr) : Bool :=
  restoresP i || match i with
  | .adc _ | .sbc _ | .cmp _ | .cpx _ | .cpy _ | .asl _ | .lsr _ | .rol _ | .ror _ | .clc | .sec => true
  | _ => false

/-- Instructions that write N (R26). -/
def writesN (i : Instr) : Bool :=
  restoresP i || match i with
  | .lda _ | .ldx _ | .ldy _ | .tax | .tay | .tsx | .txa | .tya | .pla | .plx | .ply => true
  | .adc _ | .sbc _ | .and _ | .ora _ | .eor _ | .bit (.mem _) | .cmp _ | .cpx _ | .cpy _ => true
  | .asl _ | .lsr _ | .rol _ | .ror _ | .inc _ | .dec _ | .inx | .dex | .iny | .dey => true
  | _ => false

/-- Instructions that write Z: those that write N, and BIT #, TSB, TRB (R26). -/
def writesZ (i : Instr) : Bool :=
  writesN i || match i with
  | .bit (.imm _) | .tsb _ | .trb _ => true
  | _ => false

/-- Instructions that write V (R26, R314). -/
def writesV (i : Instr) : Bool :=
  restoresP i || match i with
  | .adc _ | .sbc _ | .bit (.mem _) | .clv => true
  | _ => false

/-- Instructions that write I (R26). -/
def writesI (i : Instr) : Bool :=
  restoresP i || match i with
  | .cli | .sei | .brk => true
  | _ => false

/-- Instructions that write D (R26). -/
def writesD (i : Instr) : Bool :=
  restoresP i || match i with
  | .cld | .sed | .brk => true
  | _ => false

/-- Control transfers: the instructions that change PC beyond their own fetch (R27, R295). -/
def transfersControl : Instr → Bool
  | .bpl _ | .bmi _ | .bvc _ | .bvs _ | .bcc _ | .bcs _ | .bne _ | .beq _ | .bra _ => true
  | .jmp _ | .jsr _ | .rts | .rti | .brk => true
  | .bbr0 _ _ | .bbr1 _ _ | .bbr2 _ _ | .bbr3 _ _ | .bbr4 _ _ | .bbr5 _ _ | .bbr6 _ _ | .bbr7 _ _ => true
  | .bbs0 _ _ | .bbs1 _ _ | .bbs2 _ _ | .bbs3 _ _ | .bbs4 _ _ | .bbs5 _ _ | .bbs6 _ _ | .bbs7 _ _ => true
  | _ => false

/-- The opcodes of a read instruction by operand form: #; zp; zp,X; zp,Y; abs; abs,X; abs,Y; (zp,X); (zp),Y; (zp). -/
def addrForms (z : Byte) (w : Word) : List Addr :=
  [.zp z, .zpX z, .zpY z, .abs w, .absX w, .absY w, .indX z, .indY z, .ind z]

def srcOpcodes (mk : Src → Instr) (z : Byte) (w : Word) : List (Option Byte) :=
  (Src.imm z :: (addrForms z w).map Src.mem).map fun o => (mk o).opcode

def locOpcodes (mk : Loc → Instr) (z : Byte) (w : Word) : List (Option Byte) :=
  (Loc.acc :: (addrForms z w).map Loc.mem).map fun o => (mk o).opcode

def addrOpcodes (mk : Addr → Instr) (z : Byte) (w : Word) : List (Option Byte) :=
  (addrForms z w).map fun o => (mk o).opcode

/-- The decimal value of a byte of two decimal digits. -/
def bcdValue (v : Byte) : Nat := 10 * (v.toNat / 16) + v.toNat % 16

/-- `sext(v & 0xF0)` of R211: the high digit times 16, in two's complement. -/
def signedHighDigit (v : Byte) : Int := 16 * (v.toNat / 16) - if 128 ≤ v.toNat then 256 else 0

/-- Both digits of the byte are decimal. -/
def isBcd (v : Byte) : Prop := v.toNat / 16 ≤ 9 ∧ v.toNat % 16 ≤ 9

end Sys2Proof.Machine
end

