-- ==== Sys2Proof/Certificates/Slice0/Obligations.lean ====
section
/-!
DEFINITION. The statements about the model, from the numbered rules of the spec. A statement about `exec` begins after
the fetch of the instruction's bytes (log 7); StepRunsTheDecodedInstruction joins it to a step.
-/

open Sys2Proof Sys2Proof.Machine

/-! ## Encoding -/

/-- Words of the source's own scenarios and of R88, R339 decode to the instructions they stand for. -/
def Obligations.SpecWordsDecode : Prop :=
  decode [0xA9#8, 0x42#8] = .ok (.lda (.imm 0x42#8), [])
    ∧ decode [0x8D#8, 0x00#8, 0x20#8] = .ok (.sta (.abs 0x2000#16), [])
    ∧ decode [0x18#8] = .ok (.clc, [])
    ∧ decode [0x69#8, 0x50#8] = .ok (.adc (.imm 0x50#8), [])
    ∧ decode [0x48#8] = .ok (.pha, [])
    ∧ decode [0x20#8, 0x00#8, 0x90#8] = .ok (.jsr 0x9000#16, [])
    ∧ decode [0x60#8] = .ok (.rts, [])
    ∧ decode [0x6C#8, 0xFF#8, 0x10#8] = .ok (.jmp (.ind 0x10FF#16), [])
    ∧ decode [0x96#8, 0xF0#8] = .ok (.stx (.zpY 0xF0#8), [])
    ∧ decode [0x0F#8, 0x10#8, 0x05#8] = .ok (.bbr0 0x10#8 0x05#8, [])

/-- Every opcode byte, with operand bytes after it, decodes to a well-formed instruction that has this opcode (R85,
R113). -/
def Obligations.EveryOpcodeByteDecodes : Prop :=
  ∀ op b1 b2 : Byte, ∃ i rest, decode [op, b1, b2] = .ok (i, rest)
    ∧ i.wellFormed = true ∧ i.opcode = some op ∧ i.length + rest.length = 3

/-- Exactly the well-formed instructions have an encoding, and decoding it, whatever bytes follow, gives the instruction
back with every operand. -/
def Obligations.DecodeInvertsEncode : Prop :=
  ∀ i : Instr, (i.wellFormed = true ↔ (encode i).isSome = true)
    ∧ ∀ bytes rest, encode i = some bytes → decode (bytes ++ rest) = .ok (i, rest)

/-- An instruction that decodes from some bytes encodes to exactly the bytes it consumed: no two encodings share a
meaning, and no byte is dropped. -/
def Obligations.EncodeInvertsDecode : Prop :=
  ∀ bytes rest i, decode bytes = .ok (i, rest) → ∃ used, encode i = some used ∧ used ++ rest = bytes

/-! ## The step -/

/-- With no serviceable interrupt, not halted, and three bytes of RAM at PC that decode to an instruction whose group
is not switched off, a step is that instruction's `exec` on the state after its fetch, then the end of the step. -/
def Obligations.StepRunsTheDecodedInstruction : Prop :=
  ∀ (s : State) (i : Instr) (rest : List Byte),
    s.serviceable = none → s.halted = false → codeIsRam s →
    switchedOff s.params (s.mem.read s.pc.toNat) = false → decode (bytesAtPc s) = .ok (i, rest) →
      i.wellFormed = true ∧ step s = endStep (exec i (afterFetch i.length s))

/-- R318, R319: an opcode byte that is not implemented is a one-byte, one-access NOP, and so is 0xEA (R317); the 44
undefined bytes, WAI and STP are unimplemented whatever the parameters, an extension opcode when its parameter is
false. One byte whatever the 65C02 map says is the spec's decision D3. -/
def Obligations.UnimplementedOpcodeIsAOneByteNop : Prop :=
  (∀ s : State, s.serviceable = none → s.halted = false →
      (implemented s.params (s.busValue s.pc) = false ∨ s.busValue s.pc = 0xEA#8) →
      step s = .next (clockBus { s with
        pc          := s.pc + 1
        cycles      := s.cycles + 1
        deviceReads := if s.isDevice s.pc then s.deviceReads + 1 else s.deviceReads
        accesses    := [.read s.pc (s.busValue s.pc)] }))
    ∧ undefinedOpcodes.length = 44
    ∧ (∀ p op, op ∈ undefinedOpcodes → implemented p op = false)
    ∧ (∀ p, implemented p 0xCB#8 = false ∧ implemented p 0xDB#8 = false)
    ∧ (∀ p op g, extensionOf op = some g → implemented p op = p.enabled g)

/-- R121: a step always leads to a next state; it never faults and nothing is refused. -/
def Obligations.StepIsTotal : Prop := ∀ s : State, ∃ t, step s = .next t

/-- What a step returns is what `cycles` held when it began plus the accesses it made (R117), and `cycles` is 0 after
it (R119). The carried-in count is the spec's decision D8. -/
def Obligations.StepReturnsItsAccessCount : Prop :=
  ∀ s t : State, step s = .next t →
    t.returned = s.cycles + BitVec.ofNat 32 t.accesses.length ∧ t.cycles = 0

/-- R462 (derived by the spec): the accesses of a step are those of the table for the instruction it fetched, 5 for an
interrupt entry, 0 for a halted step with nothing serviceable. -/
def Obligations.TicksFollowTheOpcode : Prop :=
  ∀ s t : State, step s = .next t →
    (s.serviceable = none → s.halted = false → t.accesses.length = instrTicks (fetchInstr (beginStep s)).1)
      ∧ (s.serviceable ≠ none → t.accesses.length = 5)
      ∧ (s.serviceable = none → s.halted = true → t.accesses.length = 0)

/-- No instruction's effect depends on the tick counter (R431, R463): started with another count it has the same
effect, and counts the same ticks. -/
def Obligations.ResultsDoNotDependOnCycles : Prop :=
  ∀ (i : Instr) (s t : State) (k : BitVec 32), exec i s = .next t →
    exec i { s with cycles := k } = .next { t with cycles := k + (t.cycles - s.cycles) }

/-- A step keeps the memory in its canonical form. -/
def Obligations.StepKeepsMemoryCanonical : Prop := ∀ s t : State, s.Inv → step s = .next t → t.Inv

/-- So does every host call, and construction on a canonical memory. -/
def Obligations.HostCallsKeepMemoryCanonical : Prop :=
  (∀ (c : HostCall) (s t : State), s.Inv → hostCall c s = .next t → t.Inv)
    ∧ ∀ params mem windows answers, Memory.wf mem = true → (newCore params mem windows answers).Inv

/-- The state right after reset meets the invariant, and it is what construction gives on an empty bus with the default
parameters (the empty memory and the quiet platform are the model's choices, log 2, log 3, log 5). -/
def Obligations.ResetIsConstructionOnAnEmptyBus : Prop :=
  State.reset.Inv ∧ State.reset = newCore defaultParams [] [] []

/-! ## Construction, reset and the host's other calls -/

/-- R450: the registers, flags, latch, halt flag and counter after `new(bus)`, and the two reads of the reset vector.
The counted reads, the halt flag and the latch are the spec's decisions D8 and D11; `accesses` and `returned` are the
model's records (log 6). -/
def Obligations.ConstructionValues : Prop :=
  ∀ params mem windows answers, ∃ lo hi : Byte,
    newCore params mem windows answers =
      { a := 0, x := 0, y := 0, sp := 0xFF#8, pc := joinBytes hi lo
        p := { n := false, v := false, d := false, i := true, z := false, c := false }
        cycles := if params.resetReadsCounted then 2 else 0
        latch := { nmi := false, irq := false }, halted := false, params := params, mem := mem, windows := windows
        deviceReads := (newCore params mem windows answers).deviceReads, clockAnswers := answers
        accesses := [.read 0xFFFC#16 lo, .read 0xFFFD#16 hi], returned := 0 }
      ∧ ReadsRam (newCore params mem windows answers) 0xFFFC#16 lo
      ∧ ReadsRam (newCore params mem windows answers) 0xFFFD#16 hi

/-- R452: `reset()` changes SP, I, the halt flag and PC, reads the reset vector, and leaves everything else; the two
reads are counted under RESET_READS_COUNTED. What the source does not name stays unchanged by the spec's decision D12,
the count is its D8; `accesses` is the model's record (log 6). -/
def Obligations.ResetCallValues : Prop :=
  ∀ s : State, ∃ lo hi : Byte,
    hostReset s = { s with
        sp          := 0xFD#8
        p           := { s.p with i := true }
        halted      := false
        pc          := joinBytes hi lo
        cycles      := if s.params.resetReadsCounted then s.cycles + 2 else s.cycles
        deviceReads := (hostReset s).deviceReads
        accesses    := s.accesses ++ [.read 0xFFFC#16 lo, .read 0xFFFD#16 hi] }
      ∧ ReadsRam s 0xFFFC#16 lo ∧ ReadsRam s 0xFFFD#16 hi

/-- The latch setters have exactly the effect of a `clock` answer (R402), and the halt assertion sets the halt flag and
nothing else (R425): after a step whose clock answer carries the request, the state is the one a setter gives after the
same step without it. The OR and the halt call are the spec's decisions D13 and D10; the list of coming answers is the
model's (log 5). -/
def Obligations.SettersActLikeAClockAnswer : Prop :=
  ∀ (s : State) (irq nmi : Bool) (w : List (Word × Byte)) (rest : List ClockAnswer),
    clockBus { s with clockAnswers := { nmi := nmi, irq := true, writes := w } :: rest }
        = requestIrq (clockBus { s with clockAnswers := { nmi := nmi, irq := false, writes := w } :: rest })
      ∧ clockBus { s with clockAnswers := { nmi := true, irq := irq, writes := w } :: rest }
        = requestNmi (clockBus { s with clockAnswers := { nmi := false, irq := irq, writes := w } :: rest })
      ∧ assertHalt s = { s with halted := true }

/-! ## Interrupts and halt -/

/-- R111: NMI is serviceable whenever it is latched, IRQ when it is latched and I = 0 (and no NMI is). -/
def Obligations.ServiceableInterrupts : Prop :=
  ∀ s : State, (s.serviceable = some .nmi ↔ s.latch.nmi = true)
    ∧ (s.serviceable = some .irq ↔ s.latch.nmi = false ∧ s.latch.irq = true ∧ s.p.i = false)
    ∧ (s.serviceable = none ↔ s.latch.nmi = false ∧ (s.latch.irq = true → s.p.i = true))

/-- R406: a step with a serviceable interrupt enters it, halted or not: its latch bit is cleared, PC and P (bit 4 = 0)
are pushed, I is set, D is cleared, and PC is loaded from its vector, in 5 accesses. That nothing else is accessed and
the halt flag stays are the spec's decisions D4 and D10. -/
def Obligations.InterruptEntry : Prop :=
  nmiVector = 0xFFFA#16 ∧ irqVector = 0xFFFE#16 ∧
  ∀ s : State, s.Inv →
    (s.serviceable = some .nmi → ∃ t, step s = .next (clockBus t)
        ∧ EntersHandler false s.pc nmiVector { s with accesses := [], latch := { s.latch with nmi := false } } t)
      ∧ (s.serviceable = some .irq → ∃ t, step s = .next (clockBus t)
        ∧ EntersHandler false s.pc irqVector { s with accesses := [], latch := { s.latch with irq := false } } t)

/-- R405: with both latched, whatever I is, the step enters NMI and then clocks the bus; IRQ stays latched, and no IRQ
is serviceable after it, because NMI entry set I. The canonical memory of the entry's frame is the model's (log 2). -/
def Obligations.NmiOutranksIrq : Prop :=
  ∀ s t : State, s.latch.nmi = true → s.latch.irq = true → step s = .next t →
    (s.Inv → ∃ u, t = clockBus u
        ∧ EntersHandler false s.pc nmiVector { s with accesses := [], latch := { nmi := false, irq := true } } u)
      ∧ t.latch.irq = true ∧ t.p.i = true ∧ t.serviceable ≠ some .irq
      ∧ (s.clockAnswer.nmi = false → t.serviceable = none)

/-- R401: a masked IRQ stays latched through every step; only BRK under BRK_CLEARS_IRQ may clear it (the spec's
decision D9). -/
def Obligations.MaskedIrqStaysLatched : Prop :=
  ∀ s t : State, s.latch.irq = true → s.p.i = true → step s = .next t →
    (s.params.brkClearsIrq = false ∨ (fetchInstr (beginStep s)).1 ≠ .brk) → t.latch.irq = true

/-- R118: halted with nothing serviceable, a step makes no access, returns the carried count and clocks the bus
(the spec's decision D10). -/
def Obligations.HaltedStepDoesNothing : Prop :=
  ∀ s : State, s.halted = true → s.serviceable = none →
    step s = .next (clockBus { s with accesses := [] })
      ∧ (clockBus { s with accesses := [] }).returned = s.cycles
      ∧ (clockBus { s with accesses := [] }).accesses = []

/-- No step changes the halt flag (R29, R425; the spec's decision D10) or a parameter (R330), nor which addresses are a
device's (the model's list, log 3). -/
def Obligations.StepKeepsHaltAndParameters : Prop :=
  ∀ s t : State, step s = .next t → t.halted = s.halted ∧ t.params = s.params ∧ t.windows = s.windows

/-- R119: after a step the tick counter is 0, and every interrupt the bus reported for the step's window is latched.
That the bus's answer is then used up is the model's: the list of coming answers is its choice (log 5). -/
def Obligations.ClockAnswerIsLatched : Prop :=
  ∀ s t : State, step s = .next t →
    t.cycles = 0 ∧ (s.clockAnswer.nmi = true → t.latch.nmi = true) ∧ (s.clockAnswer.irq = true → t.latch.irq = true)
      ∧ t.clockAnswers = s.clockAnswers.tail

/-- Entering an interrupt and then at once executing RTI restores PC, P and SP (R409), on a stack in RAM. -/
def Obligations.RtiUndoesInterruptEntry : Prop :=
  ∀ (s : State) (src : Source), s.Inv → stackTopIsRam s →
    ∃ t, exec .rti (enterInterrupt src s) = .next t
      ∧ t.pc = s.pc ∧ t.p = s.p ∧ t.sp = s.sp ∧ t.a = s.a ∧ t.x = s.x ∧ t.y = s.y

/-! ## Memory and addressing -/

/-- The resolver gives each mode the effective address of the table (R136-R145), with pointers in RAM: index sums and
pointers of the zero-page modes wrap in page 0, the absolute and indirect sums in 16 bits. -/
def Obligations.EffectiveAddresses : Prop :=
  ∀ (m : Addr) (s : State), pointerIsRam m s →
    (resolve m s).1 = effectiveAddress m s
      ∧ AfterReads
          (match zeroPagePointer m s with
           | some z => [.read (zeroPageAddr z) (s.mem.read z.toNat),
                        .read (zeroPageAddr (z + 1)) (s.mem.read (z + 1).toNat)]
           | none   => [])
          s (resolve m s).2

/-- `load` (R131) gives the byte at the effective address, in one read after the mode's pointer reads. The clause on an
immediate is the model's (log 7): its byte was fetched with the opcode, before exec, so `load` gives it without another
access, where R131 has `load(immediate)` make that one fetch. -/
def Obligations.LoadReturnsTheOperand : Prop :=
  (∀ (v : Byte) (s : State), load (.imm v) s = (v, s))
    ∧ ∀ (m : Addr) (s : State), ∃ v, (load (.mem m) s).1 = v
        ∧ AfterReads [.read (resolve m s).1 v] (resolve m s).2 (load (.mem m) s).2
        ∧ ReadsRam s (resolve m s).1 v

/-- On plain RAM a read returns the byte last written to the address (R62; the spec's decision D14), and a write changes
no other byte. -/
def Obligations.ReadAfterWrite : Prop :=
  ∀ (s : State) (a b : Word) (v : Byte), s.Inv → s.isRam a → s.isRam b →
    (memRead b (memWrite a v s)).1 = if b = a then v else (memRead b s).1

/-- P as a byte (R24) and back (R25): bit 5 reads 1, bit 4 is the pusher's, and pushing P after it was restored from
`v` returns `v` but for these two bits. -/
def Obligations.StatusByteRoundTrip : Prop :=
  (∀ (f : Flags) (b : Bool), (f.toByte b).toNat =
      128 * f.n.toNat + 64 * f.v.toNat + 32 + 16 * b.toNat + 8 * f.d.toNat + 4 * f.i.toNat + 2 * f.z.toNat + f.c.toNat)
    ∧ (∀ (f : Flags) (b : Bool), Flags.ofByte (f.toByte b) = f)
    ∧ (∀ (v : Byte) (b : Bool) (k : Fin 8), ((Flags.ofByte v).toByte b).getLsbD k =
        if k = 5 then true else if k = 4 then b else v.getLsbD k)

/-! ## Loads, stores, transfers -/

/-- R160-R162: LDA, LDX and LDY put M into their register and set N and Z from it; nothing else changes but the tick
count and the record, which grows by exactly the reads of the mode in order (R60). -/
def Obligations.LoadsSetTheirRegister : Prop :=
  (∀ (src : Src) (s : State), ∃ t u, exec (.lda src) s = .next t ∧ AfterReads (loadReads src s) s u
      ∧ t = { u with a := (load src s).1, p := flagsNZ s.p (load src s).1 })
    ∧ (∀ (src : Src) (s : State), ∃ t u, exec (.ldx src) s = .next t ∧ AfterReads (loadReads src s) s u
      ∧ t = { u with x := (load src s).1, p := flagsNZ s.p (load src s).1 })
    ∧ (∀ (src : Src) (s : State), ∃ t u, exec (.ldy src) s = .next t ∧ AfterReads (loadReads src s) s u
      ∧ t = { u with y := (load src s).1, p := flagsNZ s.p (load src s).1 })
    ∧ (∀ z w, srcOpcodes .lda z w = [some 0xA9#8, some 0xA5#8, some 0xB5#8, none, some 0xAD#8, some 0xBD#8, some 0xB9#8,
          some 0xA1#8, some 0xB1#8, some 0xB2#8]
        ∧ srcOpcodes .ldx z w = [some 0xA2#8, some 0xA6#8, none, some 0xB6#8, some 0xAE#8, none, some 0xBE#8,
          none, none, none]
        ∧ srcOpcodes .ldy z w = [some 0xA0#8, some 0xA4#8, some 0xB4#8, none, some 0xAC#8, some 0xBC#8, none,
          none, none, none])

/-- R163-R165, R334: STA, STX, STY and STZ write their byte to the effective address, which is not read first; no
register and no flag changes, and no other byte of memory. -/
def Obligations.StoresWriteOneByte : Prop :=
  (∀ (m : Addr) (s : State), s.Inv → ∃ t, exec (.sta m) s = .next t
      ∧ StoresByte (pointerReads m s) (resolve m s).1 s.a s t)
    ∧ (∀ (m : Addr) (s : State), s.Inv → ∃ t, exec (.stx m) s = .next t
      ∧ StoresByte (pointerReads m s) (resolve m s).1 s.x s t)
    ∧ (∀ (m : Addr) (s : State), s.Inv → ∃ t, exec (.sty m) s = .next t
      ∧ StoresByte (pointerReads m s) (resolve m s).1 s.y s t)
    ∧ (∀ (m : Addr) (s : State), s.Inv → ∃ t, exec (.stz m) s = .next t
      ∧ StoresByte (pointerReads m s) (resolve m s).1 0x00#8 s t)
    ∧ (∀ z w, addrOpcodes .sta z w = [some 0x85#8, some 0x95#8, none, some 0x8D#8, some 0x9D#8, some 0x99#8,
          some 0x81#8, some 0x91#8, some 0x92#8]
        ∧ addrOpcodes .stx z w = [some 0x86#8, none, some 0x96#8, some 0x8E#8, none, none, none, none, none]
        ∧ addrOpcodes .sty z w = [some 0x84#8, some 0x94#8, none, some 0x8C#8, none, none, none, none, none]
        ∧ addrOpcodes .stz z w = [some 0x64#8, some 0x74#8, none, some 0x9C#8, some 0x9E#8, none, none, none, none])

/-- R166-R171: the register transfers; all set N and Z from the copied byte but TXS, which changes no flag. -/
def Obligations.TransfersCopyRegisters : Prop :=
  ∀ s : State,
    exec .tax s = .next { s with x := s.a, p := flagsNZ s.p s.a }
      ∧ exec .tay s = .next { s with y := s.a, p := flagsNZ s.p s.a }
      ∧ exec .tsx s = .next { s with x := s.sp, p := flagsNZ s.p s.sp }
      ∧ exec .txa s = .next { s with a := s.x, p := flagsNZ s.p s.x }
      ∧ exec .txs s = .next { s with sp := s.x }
      ∧ exec .tya s = .next { s with a := s.y, p := flagsNZ s.p s.y }
      ∧ [Instr.tax, .tay, .tsx, .txa, .txs, .tya].map Instr.opcode
          = [some 0xAA#8, some 0xA8#8, some 0xBA#8, some 0x8A#8, some 0x9A#8, some 0x98#8]

/-! ## The stack -/

/-- R190, R191, R332: PHA, PHP, PHX and PHY write one byte at 0x0100 | SP and decrement SP in 8 bits; no flag and no
other register changes, and no other byte of memory. Bit 4 of the byte PHP pushes is the spec's decision D6. -/
def Obligations.PushesWriteTheStack : Prop :=
  ∀ s : State, s.Inv →
    (∃ t, exec .pha s = .next t ∧ AfterWrite (stackAddr s.sp) s.a { s with sp := s.sp - 1 } t)
      ∧ (∃ t, exec .php s = .next t
          ∧ AfterWrite (stackAddr s.sp) (s.p.toByte s.params.phpB) { s with sp := s.sp - 1 } t)
      ∧ (∃ t, exec .phx s = .next t ∧ AfterWrite (stackAddr s.sp) s.x { s with sp := s.sp - 1 } t)
      ∧ (∃ t, exec .phy s = .next t ∧ AfterWrite (stackAddr s.sp) s.y { s with sp := s.sp - 1 } t)
      ∧ (stackAddr s.sp).toNat = 0x100 + s.sp.toNat
      ∧ [Instr.pha, .php, .phx, .phy].map Instr.opcode = [some 0x48#8, some 0x08#8, some 0xDA#8, some 0x5A#8]

/-- R192, R193, R333: PLA, PLX, PLY and PLP increment SP in 8 bits and read one byte at 0x0100 | SP; PLA, PLX and PLY
put it into their register and set N and Z, PLP restores the six flags from it. -/
def Obligations.PullsReadTheStack : Prop :=
  ∀ s : State,
    (∃ t u v, exec .pla s = .next t ∧ AfterReads [.read (stackAddr (s.sp + 1)) v] s u
        ∧ t = { u with sp := s.sp + 1, a := v, p := flagsNZ s.p v } ∧ ReadsRam s (stackAddr (s.sp + 1)) v)
      ∧ (∃ t u v, exec .plx s = .next t ∧ AfterReads [.read (stackAddr (s.sp + 1)) v] s u
        ∧ t = { u with sp := s.sp + 1, x := v, p := flagsNZ s.p v } ∧ ReadsRam s (stackAddr (s.sp + 1)) v)
      ∧ (∃ t u v, exec .ply s = .next t ∧ AfterReads [.read (stackAddr (s.sp + 1)) v] s u
        ∧ t = { u with sp := s.sp + 1, y := v, p := flagsNZ s.p v } ∧ ReadsRam s (stackAddr (s.sp + 1)) v)
      ∧ (∃ t u v, exec .plp s = .next t ∧ AfterReads [.read (stackAddr (s.sp + 1)) v] s u
        ∧ t = { u with
            sp := s.sp + 1
            p  := { n := v.getLsbD 7, v := v.getLsbD 6, d := v.getLsbD 3, i := v.getLsbD 2, z := v.getLsbD 1
                    c := v.getLsbD 0 } }
        ∧ ReadsRam s (stackAddr (s.sp + 1)) v)
      ∧ [Instr.pla, .plp, .plx, .ply].map Instr.opcode = [some 0x68#8, some 0x28#8, some 0xFA#8, some 0x7A#8]

/-- A push and then a pull give the byte back and leave SP as it was (R192), wherever SP stands: PHA then PLA, and PHP
then PLP, which restores every flag. -/
def Obligations.PullUndoesPush : Prop :=
  ∀ s : State, s.Inv → s.isRam (stackAddr s.sp) →
    (∃ t u, exec .pha s = .next t ∧ exec .pla t = .next u ∧ u.a = s.a ∧ u.sp = s.sp ∧ u.p = flagsNZ s.p s.a)
      ∧ (∃ t u, exec .php s = .next t ∧ exec .plp t = .next u ∧ u.p = s.p ∧ u.sp = s.sp)

/-! ## Arithmetic, logic, compare -/

/-- R210: binary ADC, when D = 0 or DECIMAL_MODE is BINARY: A becomes the low byte of A + M + C, C its carry, V and N
and Z as the rule says; D, I and everything else are unchanged. -/
def Obligations.AdcBinary : Prop :=
  (∀ (src : Src) (s : State), s.p.d = false ∨ s.params.decimalMode = .binary →
    ∃ t u r, exec (.adc src) s = .next t ∧ AfterReads (loadReads src s) s u
      ∧ r = BitVec.ofNat 8 (s.a.toNat + (load src s).1.toNat + s.p.c.toNat)
      ∧ t = { u with
          a := r
          p := { flagsNZ s.p r with
            c := decide (256 ≤ s.a.toNat + (load src s).1.toNat + s.p.c.toNat)
            v := (~~~(s.a ^^^ (load src s).1) &&& (s.a ^^^ r)).getLsbD 7 } })
    ∧ ∀ z w, srcOpcodes .adc z w = [some 0x69#8, some 0x65#8, some 0x75#8, none, some 0x6D#8, some 0x7D#8, some 0x79#8,
        some 0x61#8, some 0x71#8, some 0x72#8]

/-- R212: binary SBC, ADC of the complemented operand; and C = 1 exactly when there is no borrow. -/
def Obligations.SbcBinary : Prop :=
  (∀ (src : Src) (s : State), s.p.d = false ∨ s.params.decimalMode = .binary →
    ∃ t u r, exec (.sbc src) s = .next t ∧ AfterReads (loadReads src s) s u
      ∧ r = BitVec.ofNat 8 (s.a.toNat + (255 - (load src s).1.toNat) + s.p.c.toNat)
      ∧ t = { u with
          a := r
          p := { flagsNZ s.p r with
            c := decide ((load src s).1.toNat + (1 - s.p.c.toNat) ≤ s.a.toNat)
            v := ((s.a ^^^ (load src s).1) &&& (s.a ^^^ r)).getLsbD 7 } })
    ∧ ∀ z w, srcOpcodes .sbc z w = [some 0xE9#8, some 0xE5#8, some 0xF5#8, none, some 0xED#8, some 0xFD#8, some 0xF9#8,
        some 0xE1#8, some 0xF1#8, some 0xF2#8]

/-- V of binary ADC and SBC is the two's-complement overflow of the signed sum and difference (R214). -/
def Obligations.OverflowIsSigned : Prop :=
  ∀ (m : Byte) (s : State), s.p.d = false →
    ∃ t u, exec (.adc (.imm m)) s = .next t ∧ exec (.sbc (.imm m)) s = .next u
      ∧ (t.p.v = true ↔ s.a.toInt + m.toInt + s.p.c.toInt < -128 ∨ 127 < s.a.toInt + m.toInt + s.p.c.toInt)
      ∧ (u.p.v = true ↔ s.a.toInt - m.toInt - (1 - s.p.c.toInt) < -128 ∨ 127 < s.a.toInt - m.toInt - (1 - s.p.c.toInt))

/-- Decimal ADC under D = 1 and BCD65C02 (R211; the spec's decision D7, its algorithm is general knowledge, log 14):
for every input byte A, C, V, N and Z are those of the rule's sequences and nothing else changes: `al` is the adjusted
low digit, `sum` the accumulator sequence before its last adjustment, `adj` after it, `ts` the signed sequence. So on
decimal digits A is the two-digit decimal sum and C its hundred. -/
def Obligations.AdcDecimal : Prop :=
  ∀ (src : Src) (s : State), s.p.d = true → s.params.decimalMode = .bcd65c02 →
    ∃ (t u : State) (low al sum adj : Nat) (ts : Int), exec (.adc src) s = .next t ∧ AfterReads (loadReads src s) s u
      ∧ low = s.a.toNat % 16 + (load src s).1.toNat % 16 + s.p.c.toNat
      ∧ al = (if 0x0A ≤ low then (low + 0x06) % 16 + 0x10 else low)
      ∧ sum = 16 * (s.a.toNat / 16) + 16 * ((load src s).1.toNat / 16) + al
      ∧ adj = (if 0xA0 ≤ sum then sum + 0x60 else sum)
      ∧ ts = signedHighDigit s.a + signedHighDigit (load src s).1 + al
      ∧ t = { u with
          a := BitVec.ofNat 8 adj
          p := { flagsNZ s.p (BitVec.ofNat 8 adj) with c := decide (0x100 ≤ adj), v := decide (ts < -128 ∨ 127 < ts) } }
      ∧ (isBcd s.a → isBcd (load src s).1 →
          isBcd t.a
            ∧ bcdValue t.a + (if t.p.c then 100 else 0) = bcdValue s.a + bcdValue (load src s).1 + s.p.c.toNat)

/-- Decimal SBC under D = 1 and BCD65C02 (R213; the spec's decision D7, log 14): for every input byte C and V are those
of binary SBC, A is the low byte of the rule's sequence, N and Z follow it, and nothing else changes: `al` is the low
digits' difference, `diff` the whole difference, `adj` it after its first adjustment, `res` after both. So on decimal
digits A is the two-digit decimal difference, and C = 0 is its borrow. -/
def Obligations.SbcDecimal : Prop :=
  ∀ (src : Src) (s : State), s.p.d = true → s.params.decimalMode = .bcd65c02 →
    ∃ (t u : State) (al diff adj res : Int), exec (.sbc src) s = .next t ∧ AfterReads (loadReads src s) s u
      ∧ al = (s.a.toNat % 16 : Nat) - ((load src s).1.toNat % 16 : Nat) + s.p.c.toNat - 1
      ∧ diff = s.a.toNat - (load src s).1.toNat + s.p.c.toNat - 1
      ∧ adj = (if diff < 0 then diff - 0x60 else diff)
      ∧ res = (if al < 0 then adj - 0x06 else adj)
      ∧ t = { u with
          a := BitVec.ofInt 8 res
          p := { flagsNZ s.p (BitVec.ofInt 8 res) with
            c := decide ((load src s).1.toNat + (1 - s.p.c.toNat) ≤ s.a.toNat)
            v := ((s.a ^^^ (load src s).1)
                &&& (s.a ^^^ (BitVec.ofNat 8 (s.a.toNat + (255 - (load src s).1.toNat) + s.p.c.toNat)))).getLsbD 7 } }
      ∧ (isBcd s.a → isBcd (load src s).1 →
          isBcd t.a
            ∧ bcdValue t.a + bcdValue (load src s).1 + (1 - s.p.c.toNat)
              = bcdValue s.a + (if t.p.c then 0 else 100))

/-- Binary ADC M and then SBC M with the carry it left gives (A + C + C' - 1) mod 256, so A comes back exactly when the
two carries differ (R214, C9). -/
def Obligations.SbcAfterAdc : Prop :=
  ∀ (m : Byte) (s : State), s.p.d = false ∨ s.params.decimalMode = .binary →
    ∃ t u, exec (.adc (.imm m)) s = .next t ∧ exec (.sbc (.imm m)) t = .next u
      ∧ u.a.toNat = (s.a.toNat + s.p.c.toNat + t.p.c.toNat + 255) % 256
      ∧ (u.a = s.a ↔ s.p.c ≠ t.p.c)

/-- R215-R217: AND, ORA and EOR combine A and M and set N and Z; V, C and everything else are unchanged. -/
def Obligations.LogicOnA : Prop :=
  (∀ (src : Src) (s : State), ∃ t u, exec (.and src) s = .next t ∧ AfterReads (loadReads src s) s u
      ∧ t = { u with a := s.a &&& (load src s).1, p := flagsNZ s.p (s.a &&& (load src s).1) })
    ∧ (∀ (src : Src) (s : State), ∃ t u, exec (.ora src) s = .next t ∧ AfterReads (loadReads src s) s u
      ∧ t = { u with a := s.a ||| (load src s).1, p := flagsNZ s.p (s.a ||| (load src s).1) })
    ∧ (∀ (src : Src) (s : State), ∃ t u, exec (.eor src) s = .next t ∧ AfterReads (loadReads src s) s u
      ∧ t = { u with a := s.a ^^^ (load src s).1, p := flagsNZ s.p (s.a ^^^ (load src s).1) })
    ∧ (∀ z w, srcOpcodes .and z w = [some 0x29#8, some 0x25#8, some 0x35#8, none, some 0x2D#8, some 0x3D#8, some 0x39#8,
          some 0x21#8, some 0x31#8, some 0x32#8]
        ∧ srcOpcodes .ora z w = [some 0x09#8, some 0x05#8, some 0x15#8, none, some 0x0D#8, some 0x1D#8, some 0x19#8,
          some 0x01#8, some 0x11#8, some 0x12#8]
        ∧ srcOpcodes .eor z w = [some 0x49#8, some 0x45#8, some 0x55#8, none, some 0x4D#8, some 0x5D#8, some 0x59#8,
          some 0x41#8, some 0x51#8, some 0x52#8])

/-- R218, R336: BIT of memory takes N and V from M and Z from A & M; BIT # changes Z alone. A is unchanged. -/
def Obligations.BitTestsFlags : Prop :=
  (∀ (m : Addr) (s : State), ∃ t u, exec (.bit (.mem m)) s = .next t ∧ AfterReads (loadReads (.mem m) s) s u
      ∧ t = { u with p := { s.p with
          n := (load (.mem m) s).1.getLsbD 7
          v := (load (.mem m) s).1.getLsbD 6
          z := decide (s.a &&& (load (.mem m) s).1 = 0) } })
    ∧ (∀ (v : Byte) (s : State), exec (.bit (.imm v)) s = .next { s with p := { s.p with z := decide (s.a &&& v = 0) } })
    ∧ (∀ z w, srcOpcodes .bit z w = [some 0x89#8, some 0x24#8, some 0x34#8, none, some 0x2C#8, some 0x3C#8, none,
          none, none, none])

/-- R219-R221: CMP, CPX and CPY set N from the difference, Z when the register equals M, C when it is not below M; no
register is written and V is unchanged. -/
def Obligations.ComparesSetFlags : Prop :=
  (∀ (src : Src) (s : State), ∃ t u, exec (.cmp src) s = .next t ∧ AfterReads (loadReads src s) s u
      ∧ t = { u with p := { s.p with
          n := (s.a - (load src s).1).getLsbD 7
          z := decide (s.a = (load src s).1)
          c := decide ((load src s).1.toNat ≤ s.a.toNat) } })
    ∧ (∀ (src : Src) (s : State), ∃ t u, exec (.cpx src) s = .next t ∧ AfterReads (loadReads src s) s u
      ∧ t = { u with p := { s.p with
          n := (s.x - (load src s).1).getLsbD 7
          z := decide (s.x = (load src s).1)
          c := decide ((load src s).1.toNat ≤ s.x.toNat) } })
    ∧ (∀ (src : Src) (s : State), ∃ t u, exec (.cpy src) s = .next t ∧ AfterReads (loadReads src s) s u
      ∧ t = { u with p := { s.p with
          n := (s.y - (load src s).1).getLsbD 7
          z := decide (s.y = (load src s).1)
          c := decide ((load src s).1.toNat ≤ s.y.toNat) } })
    ∧ (∀ z w, srcOpcodes .cmp z w = [some 0xC9#8, some 0xC5#8, some 0xD5#8, none, some 0xCD#8, some 0xDD#8, some 0xD9#8,
          some 0xC1#8, some 0xD1#8, some 0xD2#8]
        ∧ srcOpcodes .cpx z w = [some 0xE0#8, some 0xE4#8, none, none, some 0xEC#8, none, none, none, none, none]
        ∧ srcOpcodes .cpy z w = [some 0xC0#8, some 0xC4#8, none, none, some 0xCC#8, none, none, none, none, none])

/-- R222 (derived by the spec): CMP M sets N, Z and C as binary SBC M would with carry-in 1, writes no register and
leaves V unchanged. -/
def Obligations.CmpMatchesSbcWithCarry : Prop :=
  ∀ (src : Src) (s : State), s.p.d = false ∨ s.params.decimalMode = .binary →
    ∃ t u, exec (.cmp src) s = .next t ∧ exec (.sbc src) { s with p := { s.p with c := true } } = .next u
      ∧ t.p.n = u.p.n ∧ t.p.z = u.p.z ∧ t.p.c = u.p.c ∧ t.p.v = s.p.v
      ∧ t.a = s.a ∧ t.x = s.x ∧ t.y = s.y

/-! ## Shifts, rotates, increments, decrements -/

/-- R250-R254: ASL, LSR, ROL and ROR in A or in memory, one read and one write of the same address: the result, C the
bit shifted out, N and Z from the result; V and everything else are unchanged. -/
def Obligations.ShiftsAndRotates : Prop :=
  (∀ (loc : Loc) (s : State), s.Inv → ∃ t, exec (.asl loc) s = .next t ∧
      Modifies loc (fun v f => (BitVec.ofNat 8 (2 * v.toNat),
        { flagsNZ f (BitVec.ofNat 8 (2 * v.toNat)) with c := v.getLsbD 7 })) s t)
    ∧ (∀ (loc : Loc) (s : State), s.Inv → ∃ t, exec (.lsr loc) s = .next t ∧
      Modifies loc (fun v f => (BitVec.ofNat 8 (v.toNat / 2),
        { flagsNZ f (BitVec.ofNat 8 (v.toNat / 2)) with c := v.getLsbD 0 })) s t)
    ∧ (∀ (loc : Loc) (s : State), s.Inv → ∃ t, exec (.rol loc) s = .next t ∧
      Modifies loc (fun v f => (BitVec.ofNat 8 (2 * v.toNat + f.c.toNat),
        { flagsNZ f (BitVec.ofNat 8 (2 * v.toNat + f.c.toNat)) with c := v.getLsbD 7 })) s t)
    ∧ (∀ (loc : Loc) (s : State), s.Inv → ∃ t, exec (.ror loc) s = .next t ∧
      Modifies loc (fun v f => (BitVec.ofNat 8 (v.toNat / 2 + 128 * f.c.toNat),
        { flagsNZ f (BitVec.ofNat 8 (v.toNat / 2 + 128 * f.c.toNat)) with c := v.getLsbD 0 })) s t)
    ∧ (∀ z w,
        locOpcodes .asl z w = [some 0x0A#8, some 0x06#8, some 0x16#8, none, some 0x0E#8, some 0x1E#8, none, none, none, none]
          ∧ locOpcodes .lsr z w
            = [some 0x4A#8, some 0x46#8, some 0x56#8, none, some 0x4E#8, some 0x5E#8, none, none, none, none]
          ∧ locOpcodes .rol z w
            = [some 0x2A#8, some 0x26#8, some 0x36#8, none, some 0x2E#8, some 0x3E#8, none, none, none, none]
          ∧ locOpcodes .ror z w
            = [some 0x6A#8, some 0x66#8, some 0x76#8, none, some 0x6E#8, some 0x7E#8, none, none, none, none])

/-- R255-R260, R335: INC and DEC in memory or A, INX, DEX, INY, DEY: plus or minus 1 modulo 256, N and Z from the
result; C, V and everything else are unchanged. -/
def Obligations.IncrementsAndDecrements : Prop :=
  (∀ (loc : Loc) (s : State), s.Inv → ∃ t, exec (.inc loc) s = .next t ∧
      Modifies loc (fun v f => (BitVec.ofNat 8 (v.toNat + 1), flagsNZ f (BitVec.ofNat 8 (v.toNat + 1)))) s t)
    ∧ (∀ (loc : Loc) (s : State), s.Inv → ∃ t, exec (.dec loc) s = .next t ∧
      Modifies loc (fun v f => (BitVec.ofNat 8 (v.toNat + 255), flagsNZ f (BitVec.ofNat 8 (v.toNat + 255)))) s t)
    ∧ (∀ s : State,
        exec .inx s = .next { s with x := .ofNat 8 (s.x.toNat + 1), p := flagsNZ s.p (.ofNat 8 (s.x.toNat + 1)) }
          ∧ exec .dex s = .next { s with x := .ofNat 8 (s.x.toNat + 255), p := flagsNZ s.p (.ofNat 8 (s.x.toNat + 255)) }
          ∧ exec .iny s = .next { s with y := .ofNat 8 (s.y.toNat + 1), p := flagsNZ s.p (.ofNat 8 (s.y.toNat + 1)) }
          ∧ exec .dey s = .next { s with y := .ofNat 8 (s.y.toNat + 255), p := flagsNZ s.p (.ofNat 8 (s.y.toNat + 255)) })
    ∧ (∀ z w,
        locOpcodes .inc z w = [some 0x1A#8, some 0xE6#8, some 0xF6#8, none, some 0xEE#8, some 0xFE#8, none, none, none, none]
          ∧ locOpcodes .dec z w
            = [some 0x3A#8, some 0xC6#8, some 0xD6#8, none, some 0xCE#8, some 0xDE#8, none, none, none, none])
    ∧ [Instr.inx, .dex, .iny, .dey].map Instr.opcode = [some 0xE8#8, some 0xCA#8, some 0xC8#8, some 0x88#8]

/-! ## Control transfers -/

/-- R280-R288, R331: a branch moves PC by its displacement when its condition holds, and otherwise leaves it after the
branch; nothing else changes. The eight conditions, and BRA's, which always holds. -/
def Obligations.BranchesMovePcWhenTaken : Prop :=
  ∀ (mk : Byte → Instr) (op : Byte) (cond : Flags → Bool),
    (mk, op, cond) ∈
      [(Instr.bpl, 0x10#8, fun f : Flags => !f.n), (Instr.bmi, 0x30#8, fun f => f.n),
       (Instr.bvc, 0x50#8, fun f => !f.v), (Instr.bvs, 0x70#8, fun f => f.v),
       (Instr.bcc, 0x90#8, fun f => !f.c), (Instr.bcs, 0xB0#8, fun f => f.c),
       (Instr.bne, 0xD0#8, fun f => !f.z), (Instr.beq, 0xF0#8, fun f => f.z),
       (Instr.bra, 0x80#8, fun _ => true)] →
    ∀ (d : Byte) (s : State), (mk d).opcode = some op ∧
      exec (mk d) s = .next (if cond s.p then { s with pc := branchTarget s.pc d } else s)

/-- R289, R290, R341: JMP loads PC with the address, or with the little-endian pointer at the address (plus X), whose
second byte is at the next address modulo 65536; nothing else changes. -/
def Obligations.JumpsLoadPc : Prop :=
  (∀ (w : Word) (s : State), exec (.jmp (.abs w)) s = .next { s with pc := w })
    ∧ (∀ (w : Word) (s : State), ∃ t u lo hi, exec (.jmp (.ind w)) s = .next t
        ∧ AfterReads [.read w lo, .read (w + 1) hi] s u ∧ t = { u with pc := joinBytes hi lo }
        ∧ ReadsRam s w lo ∧ ReadsRam s (w + 1) hi)
    ∧ (∀ (w : Word) (s : State), ∃ t u lo hi p, exec (.jmp (.indX w)) s = .next t
        ∧ p = BitVec.ofNat 16 (w.toNat + s.x.toNat)
        ∧ AfterReads [.read p lo, .read (p + 1) hi] s u ∧ t = { u with pc := joinBytes hi lo }
        ∧ ReadsRam s p lo ∧ ReadsRam s (p + 1) hi)
    ∧ (∀ w, (Instr.jmp (.abs w)).opcode = some 0x4C#8 ∧ (Instr.jmp (.ind w)).opcode = some 0x6C#8
        ∧ (Instr.jmp (.indX w)).opcode = some 0x7C#8 ∧ ∀ g, (Instr.jmp g).length = 3)

/-- R291: JSR pushes the address of its last byte (PC - 1, PC standing past the instruction), high byte first, and
jumps; no flag changes, and no byte of memory but the two. The order of the accesses is the spec's decision D5. -/
def Obligations.JsrPushesItsReturnAddress : Prop :=
  ∀ (w : Word) (s : State), s.Inv → ∃ t, exec (.jsr w) s = .next t
    ∧ t = { s with
        pc       := w
        sp       := s.sp - 2
        cycles   := s.cycles + 2
        mem      := t.mem
        accesses := s.accesses ++ [.write (stackAddr s.sp) (highByte (s.pc - 1)),
          .write (stackAddr (s.sp - 1)) (lowByte (s.pc - 1))] }
    ∧ (∀ a : Nat, a ≠ (stackAddr s.sp).toNat → a ≠ (stackAddr (s.sp - 1)).toNat → t.mem.read a = s.mem.read a)
    ∧ (s.isRam (stackAddr s.sp) → t.mem.read (stackAddr s.sp).toNat = highByte (s.pc - 1))
    ∧ (s.isRam (stackAddr (s.sp - 1)) → t.mem.read (stackAddr (s.sp - 1)).toNat = lowByte (s.pc - 1))
    ∧ (Instr.jsr w).opcode = some 0x20#8 ∧ (Instr.jsr w).length = 3

/-- R292: RTS pops the low byte, then the high byte, and continues one past the popped address; no flag changes. -/
def Obligations.RtsPopsAndAddsOne : Prop :=
  ∀ s : State, ∃ t u lo hi, exec .rts s = .next t
    ∧ AfterReads [.read (stackAddr (s.sp + 1)) lo, .read (stackAddr (s.sp + 2)) hi] s u
    ∧ t = { u with sp := s.sp + 2, pc := joinBytes hi lo + 1 }
    ∧ ReadsRam s (stackAddr (s.sp + 1)) lo ∧ ReadsRam s (stackAddr (s.sp + 2)) hi
    ∧ Instr.rts.opcode = some 0x60#8 ∧ Instr.rts.length = 1

/-- JSR and then RTS come back to the byte after the JSR with SP and every register and flag as before, on a stack in
RAM (R291, R292). -/
def Obligations.RtsReturnsFromJsr : Prop :=
  ∀ (w : Word) (s : State), s.Inv → s.isRam (stackAddr s.sp) → s.isRam (stackAddr (s.sp - 1)) →
    ∃ t u, exec (.jsr w) s = .next t ∧ exec .rts t = .next u
      ∧ u.pc = s.pc ∧ u.sp = s.sp ∧ u.p = s.p ∧ u.a = s.a ∧ u.x = s.x ∧ u.y = s.y

/-- R293: RTI pops P (bits 5 and 4 discarded), then PC low and high, with no +1; nothing else changes. -/
def Obligations.RtiPopsStatusAndPc : Prop :=
  ∀ s : State, ∃ t u v lo hi, exec .rti s = .next t
    ∧ AfterReads [.read (stackAddr (s.sp + 1)) v, .read (stackAddr (s.sp + 2)) lo, .read (stackAddr (s.sp + 3)) hi] s u
    ∧ t = { u with
        sp := s.sp + 3
        pc := joinBytes hi lo
        p  := { n := v.getLsbD 7, v := v.getLsbD 6, d := v.getLsbD 3, i := v.getLsbD 2, z := v.getLsbD 1
                c := v.getLsbD 0 } }
    ∧ ReadsRam s (stackAddr (s.sp + 1)) v ∧ ReadsRam s (stackAddr (s.sp + 2)) lo ∧ ReadsRam s (stackAddr (s.sp + 3)) hi
    ∧ Instr.rti.opcode = some 0x40#8 ∧ Instr.rti.length = 1

/-- R294: BRK pushes the address after its padding byte (PC + 1, PC standing after the opcode) and P with bit 4 = 1,
sets I, clears D and loads PC from 0xFFFE; it clears a latched IRQ only under BRK_CLEARS_IRQ. The unread
padding byte and the parameter are the spec's decisions D4 and D9. -/
def Obligations.BrkEntersTheHandler : Prop :=
  ∀ s : State, s.Inv → ∃ t, exec .brk s = .next t
    ∧ EntersHandler true (s.pc + 1) 0xFFFE#16
        { s with latch := { s.latch with irq := s.latch.irq && !s.params.brkClearsIrq } } t
    ∧ Instr.brk.opcode = some 0x00#8 ∧ Instr.brk.length = 1

/-! ## Flags, NOP, bit operations -/

/-- R310-R316: each flag instruction sets or clears its own flag and changes nothing else. -/
def Obligations.FlagInstructionsSetOneFlag : Prop :=
  ∀ s : State,
    exec .clc s = .next { s with p := { s.p with c := false } }
      ∧ exec .sec s = .next { s with p := { s.p with c := true } }
      ∧ exec .cli s = .next { s with p := { s.p with i := false } }
      ∧ exec .sei s = .next { s with p := { s.p with i := true } }
      ∧ exec .clv s = .next { s with p := { s.p with v := false } }
      ∧ exec .cld s = .next { s with p := { s.p with d := false } }
      ∧ exec .sed s = .next { s with p := { s.p with d := true } }
      ∧ [Instr.clc, .sec, .cli, .sei, .clv, .cld, .sed].map Instr.opcode
          = [some 0x18#8, some 0x38#8, some 0x58#8, some 0x78#8, some 0xB8#8, some 0xD8#8, some 0xF8#8]

/-- R317-R319: NOP, an undefined opcode, WAI and STP do nothing beyond the fetch of their one byte. -/
def Obligations.NopsDoNothing : Prop :=
  ∀ (s : State) (op : Byte),
    exec .nop s = .next s ∧ exec (.nopUndefined op) s = .next s ∧ exec .wai s = .next s ∧ exec .stp s = .next s
      ∧ Instr.nop.length = 1 ∧ (Instr.nopUndefined op).length = 1 ∧ Instr.wai.length = 1 ∧ Instr.stp.length = 1
      ∧ Instr.nop.opcode = some 0xEA#8 ∧ Instr.wai.opcode = some 0xCB#8 ∧ Instr.stp.opcode = some 0xDB#8

/-- R337, R338: TSB sets and TRB resets in memory the bits that A has, in one read and one write; Z says whether A and
the old byte had none in common; A and the other flags are unchanged. -/
def Obligations.TestAndChangeBits : Prop :=
  (∀ (m : Addr) (s : State), s.Inv → ∃ t, exec (.tsb m) s = .next t ∧
      Modifies (.mem m) (fun v f => (v ||| s.a, { f with z := decide (s.a &&& v = 0) })) s t)
    ∧ (∀ (m : Addr) (s : State), s.Inv → ∃ t, exec (.trb m) s = .next t ∧
      Modifies (.mem m) (fun v f => (v &&& ~~~s.a, { f with z := decide (s.a &&& v = 0) })) s t)
    ∧ (∀ z w, addrOpcodes .tsb z w = [some 0x04#8, none, none, some 0x0C#8, none, none, none, none, none]
        ∧ addrOpcodes .trb z w = [some 0x14#8, none, none, some 0x1C#8, none, none, none, none, none])

/-- R340: RMBn clears and SMBn sets bit n of a zero-page byte, whose other bits stay, in one read and one write of
0x00zz, a device's byte too; no register and no flag changes. -/
def Obligations.BitsOfZeroPageBytes : Prop :=
  ∀ (n : Fin 8) (rmb smb : Byte → Instr),
    (n, rmb, smb) ∈
      [((0 : Fin 8), Instr.rmb0, Instr.smb0), (1, Instr.rmb1, Instr.smb1), (2, Instr.rmb2, Instr.smb2),
       (3, Instr.rmb3, Instr.smb3), (4, Instr.rmb4, Instr.smb4), (5, Instr.rmb5, Instr.smb5),
       (6, Instr.rmb6, Instr.smb6), (7, Instr.rmb7, Instr.smb7)] →
    ∀ (zz : Byte) (s : State), s.Inv →
      (∃ t v r, exec (rmb zz) s = .next t ∧ StoresByte [.read (zeroPageAddr zz) v] (zeroPageAddr zz) r s t
          ∧ v = (load (.mem (.zp zz)) s).1 ∧ ReadsRam s (zeroPageAddr zz) v
          ∧ ∀ k : Fin 8, r.getLsbD k = (v.getLsbD k && decide (k ≠ n)))
        ∧ (∃ t v r, exec (smb zz) s = .next t ∧ StoresByte [.read (zeroPageAddr zz) v] (zeroPageAddr zz) r s t
          ∧ v = (load (.mem (.zp zz)) s).1 ∧ ReadsRam s (zeroPageAddr zz) v
          ∧ ∀ k : Fin 8, r.getLsbD k = (v.getLsbD k || decide (k = n)))
        ∧ (rmb zz).opcode = some (.ofNat 8 (0x07 + 0x10 * n)) ∧ (smb zz).opcode = some (.ofNat 8 (0x87 + 0x10 * n))

/-- R339: BBRn and BBSn read 0x00zz once and branch, from PC past their three bytes, when its bit n is 0 or 1; no flag
changes. The order of the operand bytes is the spec's decision D5. -/
def Obligations.BranchesOnBits : Prop :=
  ∀ (n : Fin 8) (bbr bbs : Byte → Byte → Instr),
    (n, bbr, bbs) ∈
      [((0 : Fin 8), Instr.bbr0, Instr.bbs0), (1, Instr.bbr1, Instr.bbs1), (2, Instr.bbr2, Instr.bbs2),
       (3, Instr.bbr3, Instr.bbs3), (4, Instr.bbr4, Instr.bbs4), (5, Instr.bbr5, Instr.bbs5),
       (6, Instr.bbr6, Instr.bbs6), (7, Instr.bbr7, Instr.bbs7)] →
    ∀ (zz d : Byte) (s : State), ∃ v u,
      AfterReads [.read (zeroPageAddr zz) v] s u ∧ ReadsRam s (zeroPageAddr zz) v
        ∧ exec (bbr zz d) s = .next (if v.getLsbD n then u else { u with pc := branchTarget s.pc d })
        ∧ exec (bbs zz d) s = .next (if v.getLsbD n then { u with pc := branchTarget s.pc d } else u)
        ∧ (bbr zz d).opcode = some (.ofNat 8 (0x0F + 0x10 * n)) ∧ (bbs zz d).opcode = some (.ofNat 8 (0x8F + 0x10 * n))

/-! ## Whole-machine frames -/

/-- What writes each register (R21-R23, R27) and each flag (R26): an instruction outside the list leaves it alone. No
instruction touches the halt flag (R29), the parameters, the platform's windows and coming answers or the last returned
value, and none but BRK under BRK_CLEARS_IRQ touches the latch (R30, R401). -/
def Obligations.OnlyTheListedInstructionsWrite : Prop :=
  ∀ (i : Instr) (s t : State), exec i s = .next t →
    (writesA i = false → t.a = s.a) ∧ (writesX i = false → t.x = s.x) ∧ (writesY i = false → t.y = s.y)
      ∧ (writesSp i = false → t.sp = s.sp) ∧ (transfersControl i = false → t.pc = s.pc)
      ∧ (writesN i = false → t.p.n = s.p.n) ∧ (writesV i = false → t.p.v = s.p.v)
      ∧ (writesD i = false → t.p.d = s.p.d) ∧ (writesI i = false → t.p.i = s.p.i)
      ∧ (writesZ i = false → t.p.z = s.p.z) ∧ (writesC i = false → t.p.c = s.p.c)
      ∧ t.halted = s.halted ∧ t.params = s.params ∧ t.windows = s.windows ∧ t.clockAnswers = s.clockAnswers
      ∧ t.returned = s.returned ∧ (i ≠ .brk ∨ s.params.brkClearsIrq = false → t.latch = s.latch)

/-- Memory changes only by recorded writes (R60): an instruction that does not store leaves memory as it is, and a byte
that reads differently after an instruction was written to in one of the accesses the instruction made. -/
def Obligations.MemoryChangesAreRecorded : Prop :=
  ∀ (i : Instr) (s t : State), exec i s = .next t →
    (storesToMemory i = false → t.mem = s.mem)
      ∧ ∃ l : List BusAccess, t.accesses = s.accesses ++ l
        ∧ ∀ a : Nat, t.mem.read a ≠ s.mem.read a → ∃ x ∈ l, x.writesTo a = true
end

