-- ==== Sys2Proof/Laws/Bits.lean ====
section
/-!
SUPPORT. The bit-field helpers: joining and splitting 16-bit values, and the addresses of the zero page and the stack.
-/

namespace Sys2Proof.Machine

theorem joinBytes_toNat (hi lo : Byte) : (joinBytes hi lo).toNat = hi.toNat * 256 + lo.toNat := by
  have h : lo.toNat < 2 ^ 8 := lo.isLt
  simp only [joinBytes, BitVec.toNat_append]
  rw [← Nat.shiftLeft_add_eq_or_of_lt h, Nat.shiftLeft_eq]

theorem lowByte_toNat (w : Word) : (lowByte w).toNat = w.toNat % 256 := by
  simp [lowByte]

theorem highByte_toNat (w : Word) : (highByte w).toNat = w.toNat / 256 := by
  have h : w.toNat < 65536 := w.isLt
  simp [highByte, Nat.shiftRight_eq_div_pow]
  omega

@[simp] theorem lowByte_joinBytes (hi lo : Byte) : lowByte (joinBytes hi lo) = lo := by
  apply BitVec.eq_of_toNat_eq
  have h : lo.toNat < 256 := lo.isLt
  rw [lowByte_toNat, joinBytes_toNat]
  omega

@[simp] theorem highByte_joinBytes (hi lo : Byte) : highByte (joinBytes hi lo) = hi := by
  apply BitVec.eq_of_toNat_eq
  have h : lo.toNat < 256 := lo.isLt
  rw [highByte_toNat, joinBytes_toNat]
  omega

@[simp] theorem joinBytes_highByte_lowByte (w : Word) : joinBytes (highByte w) (lowByte w) = w := by
  apply BitVec.eq_of_toNat_eq
  rw [joinBytes_toNat, highByte_toNat, lowByte_toNat]
  omega

theorem zeroPageAddr_toNat (z : Byte) : (zeroPageAddr z).toNat = z.toNat := by
  simp [zeroPageAddr, joinBytes_toNat]

theorem stackAddr_toNat (sp : Byte) : (stackAddr sp).toNat = 256 + sp.toNat := by
  simp [stackAddr, joinBytes_toNat]

theorem stackAddr_inj {p q : Byte} : (stackAddr p).toNat = (stackAddr q).toNat ↔ p = q := by
  rw [stackAddr_toNat, stackAddr_toNat, ← BitVec.toNat_inj]
  omega

theorem zeroExtend16_toNat (v : Byte) : (zeroExtend16 v).toNat = v.toNat := by
  have h : v.toNat < 256 := v.isLt
  simp [zeroExtend16]
  omega

/-- A displacement is a value in -128..+127 (R83). -/
theorem signExtend16_toInt (v : Byte) : (signExtend16 v).toInt = v.toInt := by
  simp [signExtend16, BitVec.toInt_signExtend_of_le]

end Sys2Proof.Machine
end

