-- ==== Sys2Proof/Laws/State.lean ====
section
/-!
SUPPORT. One lemma for each field of State under each update function, so that no proof unfolds a record update.
-/

namespace Sys2Proof.Machine

section setA

variable (s : State) (v : Byte)

@[simp] theorem State.setA_a : (s.setA v).a = v := rfl
@[simp] theorem State.setA_x : (s.setA v).x = s.x := rfl
@[simp] theorem State.setA_y : (s.setA v).y = s.y := rfl
@[simp] theorem State.setA_sp : (s.setA v).sp = s.sp := rfl
@[simp] theorem State.setA_pc : (s.setA v).pc = s.pc := rfl
@[simp] theorem State.setA_p : (s.setA v).p = s.p := rfl
@[simp] theorem State.setA_cycles : (s.setA v).cycles = s.cycles := rfl
@[simp] theorem State.setA_latch : (s.setA v).latch = s.latch := rfl
@[simp] theorem State.setA_halted : (s.setA v).halted = s.halted := rfl
@[simp] theorem State.setA_params : (s.setA v).params = s.params := rfl
@[simp] theorem State.setA_mem : (s.setA v).mem = s.mem := rfl
@[simp] theorem State.setA_windows : (s.setA v).windows = s.windows := rfl
@[simp] theorem State.setA_deviceReads : (s.setA v).deviceReads = s.deviceReads := rfl
@[simp] theorem State.setA_clockAnswers : (s.setA v).clockAnswers = s.clockAnswers := rfl
@[simp] theorem State.setA_accesses : (s.setA v).accesses = s.accesses := rfl
@[simp] theorem State.setA_returned : (s.setA v).returned = s.returned := rfl
@[simp] theorem State.setA_isDevice (b : Word) : (s.setA v).isDevice b = s.isDevice b := rfl
@[simp] theorem State.setA_busValue (b : Word) : (s.setA v).busValue b = s.busValue b := rfl

end setA

section setX

variable (s : State) (v : Byte)

@[simp] theorem State.setX_a : (s.setX v).a = s.a := rfl
@[simp] theorem State.setX_x : (s.setX v).x = v := rfl
@[simp] theorem State.setX_y : (s.setX v).y = s.y := rfl
@[simp] theorem State.setX_sp : (s.setX v).sp = s.sp := rfl
@[simp] theorem State.setX_pc : (s.setX v).pc = s.pc := rfl
@[simp] theorem State.setX_p : (s.setX v).p = s.p := rfl
@[simp] theorem State.setX_cycles : (s.setX v).cycles = s.cycles := rfl
@[simp] theorem State.setX_latch : (s.setX v).latch = s.latch := rfl
@[simp] theorem State.setX_halted : (s.setX v).halted = s.halted := rfl
@[simp] theorem State.setX_params : (s.setX v).params = s.params := rfl
@[simp] theorem State.setX_mem : (s.setX v).mem = s.mem := rfl
@[simp] theorem State.setX_windows : (s.setX v).windows = s.windows := rfl
@[simp] theorem State.setX_deviceReads : (s.setX v).deviceReads = s.deviceReads := rfl
@[simp] theorem State.setX_clockAnswers : (s.setX v).clockAnswers = s.clockAnswers := rfl
@[simp] theorem State.setX_accesses : (s.setX v).accesses = s.accesses := rfl
@[simp] theorem State.setX_returned : (s.setX v).returned = s.returned := rfl
@[simp] theorem State.setX_isDevice (b : Word) : (s.setX v).isDevice b = s.isDevice b := rfl
@[simp] theorem State.setX_busValue (b : Word) : (s.setX v).busValue b = s.busValue b := rfl

end setX

section setY

variable (s : State) (v : Byte)

@[simp] theorem State.setY_a : (s.setY v).a = s.a := rfl
@[simp] theorem State.setY_x : (s.setY v).x = s.x := rfl
@[simp] theorem State.setY_y : (s.setY v).y = v := rfl
@[simp] theorem State.setY_sp : (s.setY v).sp = s.sp := rfl
@[simp] theorem State.setY_pc : (s.setY v).pc = s.pc := rfl
@[simp] theorem State.setY_p : (s.setY v).p = s.p := rfl
@[simp] theorem State.setY_cycles : (s.setY v).cycles = s.cycles := rfl
@[simp] theorem State.setY_latch : (s.setY v).latch = s.latch := rfl
@[simp] theorem State.setY_halted : (s.setY v).halted = s.halted := rfl
@[simp] theorem State.setY_params : (s.setY v).params = s.params := rfl
@[simp] theorem State.setY_mem : (s.setY v).mem = s.mem := rfl
@[simp] theorem State.setY_windows : (s.setY v).windows = s.windows := rfl
@[simp] theorem State.setY_deviceReads : (s.setY v).deviceReads = s.deviceReads := rfl
@[simp] theorem State.setY_clockAnswers : (s.setY v).clockAnswers = s.clockAnswers := rfl
@[simp] theorem State.setY_accesses : (s.setY v).accesses = s.accesses := rfl
@[simp] theorem State.setY_returned : (s.setY v).returned = s.returned := rfl
@[simp] theorem State.setY_isDevice (b : Word) : (s.setY v).isDevice b = s.isDevice b := rfl
@[simp] theorem State.setY_busValue (b : Word) : (s.setY v).busValue b = s.busValue b := rfl

end setY

section setSp

variable (s : State) (v : Byte)

@[simp] theorem State.setSp_a : (s.setSp v).a = s.a := rfl
@[simp] theorem State.setSp_x : (s.setSp v).x = s.x := rfl
@[simp] theorem State.setSp_y : (s.setSp v).y = s.y := rfl
@[simp] theorem State.setSp_sp : (s.setSp v).sp = v := rfl
@[simp] theorem State.setSp_pc : (s.setSp v).pc = s.pc := rfl
@[simp] theorem State.setSp_p : (s.setSp v).p = s.p := rfl
@[simp] theorem State.setSp_cycles : (s.setSp v).cycles = s.cycles := rfl
@[simp] theorem State.setSp_latch : (s.setSp v).latch = s.latch := rfl
@[simp] theorem State.setSp_halted : (s.setSp v).halted = s.halted := rfl
@[simp] theorem State.setSp_params : (s.setSp v).params = s.params := rfl
@[simp] theorem State.setSp_mem : (s.setSp v).mem = s.mem := rfl
@[simp] theorem State.setSp_windows : (s.setSp v).windows = s.windows := rfl
@[simp] theorem State.setSp_deviceReads : (s.setSp v).deviceReads = s.deviceReads := rfl
@[simp] theorem State.setSp_clockAnswers : (s.setSp v).clockAnswers = s.clockAnswers := rfl
@[simp] theorem State.setSp_accesses : (s.setSp v).accesses = s.accesses := rfl
@[simp] theorem State.setSp_returned : (s.setSp v).returned = s.returned := rfl
@[simp] theorem State.setSp_isDevice (b : Word) : (s.setSp v).isDevice b = s.isDevice b := rfl
@[simp] theorem State.setSp_busValue (b : Word) : (s.setSp v).busValue b = s.busValue b := rfl

end setSp

section setPc

variable (s : State) (w : Word)

@[simp] theorem State.setPc_a : (s.setPc w).a = s.a := rfl
@[simp] theorem State.setPc_x : (s.setPc w).x = s.x := rfl
@[simp] theorem State.setPc_y : (s.setPc w).y = s.y := rfl
@[simp] theorem State.setPc_sp : (s.setPc w).sp = s.sp := rfl
@[simp] theorem State.setPc_pc : (s.setPc w).pc = w := rfl
@[simp] theorem State.setPc_p : (s.setPc w).p = s.p := rfl
@[simp] theorem State.setPc_cycles : (s.setPc w).cycles = s.cycles := rfl
@[simp] theorem State.setPc_latch : (s.setPc w).latch = s.latch := rfl
@[simp] theorem State.setPc_halted : (s.setPc w).halted = s.halted := rfl
@[simp] theorem State.setPc_params : (s.setPc w).params = s.params := rfl
@[simp] theorem State.setPc_mem : (s.setPc w).mem = s.mem := rfl
@[simp] theorem State.setPc_windows : (s.setPc w).windows = s.windows := rfl
@[simp] theorem State.setPc_deviceReads : (s.setPc w).deviceReads = s.deviceReads := rfl
@[simp] theorem State.setPc_clockAnswers : (s.setPc w).clockAnswers = s.clockAnswers := rfl
@[simp] theorem State.setPc_accesses : (s.setPc w).accesses = s.accesses := rfl
@[simp] theorem State.setPc_returned : (s.setPc w).returned = s.returned := rfl
@[simp] theorem State.setPc_isDevice (b : Word) : (s.setPc w).isDevice b = s.isDevice b := rfl
@[simp] theorem State.setPc_busValue (b : Word) : (s.setPc w).busValue b = s.busValue b := rfl

end setPc

section setP

variable (s : State) (f : Flags)

@[simp] theorem State.setP_a : (s.setP f).a = s.a := rfl
@[simp] theorem State.setP_x : (s.setP f).x = s.x := rfl
@[simp] theorem State.setP_y : (s.setP f).y = s.y := rfl
@[simp] theorem State.setP_sp : (s.setP f).sp = s.sp := rfl
@[simp] theorem State.setP_pc : (s.setP f).pc = s.pc := rfl
@[simp] theorem State.setP_p : (s.setP f).p = f := rfl
@[simp] theorem State.setP_cycles : (s.setP f).cycles = s.cycles := rfl
@[simp] theorem State.setP_latch : (s.setP f).latch = s.latch := rfl
@[simp] theorem State.setP_halted : (s.setP f).halted = s.halted := rfl
@[simp] theorem State.setP_params : (s.setP f).params = s.params := rfl
@[simp] theorem State.setP_mem : (s.setP f).mem = s.mem := rfl
@[simp] theorem State.setP_windows : (s.setP f).windows = s.windows := rfl
@[simp] theorem State.setP_deviceReads : (s.setP f).deviceReads = s.deviceReads := rfl
@[simp] theorem State.setP_clockAnswers : (s.setP f).clockAnswers = s.clockAnswers := rfl
@[simp] theorem State.setP_accesses : (s.setP f).accesses = s.accesses := rfl
@[simp] theorem State.setP_returned : (s.setP f).returned = s.returned := rfl
@[simp] theorem State.setP_isDevice (b : Word) : (s.setP f).isDevice b = s.isDevice b := rfl
@[simp] theorem State.setP_busValue (b : Word) : (s.setP f).busValue b = s.busValue b := rfl

end setP

section setLatch

variable (s : State) (l : Latch)

@[simp] theorem State.setLatch_a : (s.setLatch l).a = s.a := rfl
@[simp] theorem State.setLatch_x : (s.setLatch l).x = s.x := rfl
@[simp] theorem State.setLatch_y : (s.setLatch l).y = s.y := rfl
@[simp] theorem State.setLatch_sp : (s.setLatch l).sp = s.sp := rfl
@[simp] theorem State.setLatch_pc : (s.setLatch l).pc = s.pc := rfl
@[simp] theorem State.setLatch_p : (s.setLatch l).p = s.p := rfl
@[simp] theorem State.setLatch_cycles : (s.setLatch l).cycles = s.cycles := rfl
@[simp] theorem State.setLatch_latch : (s.setLatch l).latch = l := rfl
@[simp] theorem State.setLatch_halted : (s.setLatch l).halted = s.halted := rfl
@[simp] theorem State.setLatch_params : (s.setLatch l).params = s.params := rfl
@[simp] theorem State.setLatch_mem : (s.setLatch l).mem = s.mem := rfl
@[simp] theorem State.setLatch_windows : (s.setLatch l).windows = s.windows := rfl
@[simp] theorem State.setLatch_deviceReads : (s.setLatch l).deviceReads = s.deviceReads := rfl
@[simp] theorem State.setLatch_clockAnswers : (s.setLatch l).clockAnswers = s.clockAnswers := rfl
@[simp] theorem State.setLatch_accesses : (s.setLatch l).accesses = s.accesses := rfl
@[simp] theorem State.setLatch_returned : (s.setLatch l).returned = s.returned := rfl
@[simp] theorem State.setLatch_isDevice (b : Word) : (s.setLatch l).isDevice b = s.isDevice b := rfl
@[simp] theorem State.setLatch_busValue (b : Word) : (s.setLatch l).busValue b = s.busValue b := rfl

end setLatch

section setNZ

variable (s : State) (v : Byte)

@[simp] theorem State.setNZ_a : (s.setNZ v).a = s.a := rfl
@[simp] theorem State.setNZ_x : (s.setNZ v).x = s.x := rfl
@[simp] theorem State.setNZ_y : (s.setNZ v).y = s.y := rfl
@[simp] theorem State.setNZ_sp : (s.setNZ v).sp = s.sp := rfl
@[simp] theorem State.setNZ_pc : (s.setNZ v).pc = s.pc := rfl
@[simp] theorem State.setNZ_p : (s.setNZ v).p = s.p.setNZ v := rfl
@[simp] theorem State.setNZ_cycles : (s.setNZ v).cycles = s.cycles := rfl
@[simp] theorem State.setNZ_latch : (s.setNZ v).latch = s.latch := rfl
@[simp] theorem State.setNZ_halted : (s.setNZ v).halted = s.halted := rfl
@[simp] theorem State.setNZ_params : (s.setNZ v).params = s.params := rfl
@[simp] theorem State.setNZ_mem : (s.setNZ v).mem = s.mem := rfl
@[simp] theorem State.setNZ_windows : (s.setNZ v).windows = s.windows := rfl
@[simp] theorem State.setNZ_deviceReads : (s.setNZ v).deviceReads = s.deviceReads := rfl
@[simp] theorem State.setNZ_clockAnswers : (s.setNZ v).clockAnswers = s.clockAnswers := rfl
@[simp] theorem State.setNZ_accesses : (s.setNZ v).accesses = s.accesses := rfl
@[simp] theorem State.setNZ_returned : (s.setNZ v).returned = s.returned := rfl

end setNZ

section tick

variable (s : State)

@[simp] theorem tick_a : (tick s).a = s.a := rfl
@[simp] theorem tick_x : (tick s).x = s.x := rfl
@[simp] theorem tick_y : (tick s).y = s.y := rfl
@[simp] theorem tick_sp : (tick s).sp = s.sp := rfl
@[simp] theorem tick_pc : (tick s).pc = s.pc := rfl
@[simp] theorem tick_p : (tick s).p = s.p := rfl
@[simp] theorem tick_cycles : (tick s).cycles = s.cycles + 1 := rfl
@[simp] theorem tick_latch : (tick s).latch = s.latch := rfl
@[simp] theorem tick_halted : (tick s).halted = s.halted := rfl
@[simp] theorem tick_params : (tick s).params = s.params := rfl
@[simp] theorem tick_mem : (tick s).mem = s.mem := rfl
@[simp] theorem tick_windows : (tick s).windows = s.windows := rfl
@[simp] theorem tick_deviceReads : (tick s).deviceReads = s.deviceReads := rfl
@[simp] theorem tick_clockAnswers : (tick s).clockAnswers = s.clockAnswers := rfl
@[simp] theorem tick_accesses : (tick s).accesses = s.accesses := rfl
@[simp] theorem tick_returned : (tick s).returned = s.returned := rfl
@[simp] theorem tick_isDevice (b : Word) : (tick s).isDevice b = s.isDevice b := rfl

end tick

section beginStep

variable (s : State)

@[simp] theorem beginStep_a : (beginStep s).a = s.a := rfl
@[simp] theorem beginStep_x : (beginStep s).x = s.x := rfl
@[simp] theorem beginStep_y : (beginStep s).y = s.y := rfl
@[simp] theorem beginStep_sp : (beginStep s).sp = s.sp := rfl
@[simp] theorem beginStep_pc : (beginStep s).pc = s.pc := rfl
@[simp] theorem beginStep_p : (beginStep s).p = s.p := rfl
@[simp] theorem beginStep_cycles : (beginStep s).cycles = s.cycles := rfl
@[simp] theorem beginStep_latch : (beginStep s).latch = s.latch := rfl
@[simp] theorem beginStep_halted : (beginStep s).halted = s.halted := rfl
@[simp] theorem beginStep_params : (beginStep s).params = s.params := rfl
@[simp] theorem beginStep_mem : (beginStep s).mem = s.mem := rfl
@[simp] theorem beginStep_windows : (beginStep s).windows = s.windows := rfl
@[simp] theorem beginStep_deviceReads : (beginStep s).deviceReads = s.deviceReads := rfl
@[simp] theorem beginStep_clockAnswers : (beginStep s).clockAnswers = s.clockAnswers := rfl
@[simp] theorem beginStep_accesses : (beginStep s).accesses = [] := rfl
@[simp] theorem beginStep_returned : (beginStep s).returned = s.returned := rfl
@[simp] theorem beginStep_isDevice (b : Word) : (beginStep s).isDevice b = s.isDevice b := rfl
@[simp] theorem beginStep_busValue (b : Word) : (beginStep s).busValue b = s.busValue b := rfl
@[simp] theorem beginStep_serviceable : (beginStep s).serviceable = s.serviceable := rfl

end beginStep

section clockBus

variable (s : State)

@[simp] theorem clockBus_a : (clockBus s).a = s.a := rfl
@[simp] theorem clockBus_x : (clockBus s).x = s.x := rfl
@[simp] theorem clockBus_y : (clockBus s).y = s.y := rfl
@[simp] theorem clockBus_sp : (clockBus s).sp = s.sp := rfl
@[simp] theorem clockBus_pc : (clockBus s).pc = s.pc := rfl
@[simp] theorem clockBus_p : (clockBus s).p = s.p := rfl
@[simp] theorem clockBus_halted : (clockBus s).halted = s.halted := rfl
@[simp] theorem clockBus_params : (clockBus s).params = s.params := rfl
@[simp] theorem clockBus_windows : (clockBus s).windows = s.windows := rfl
@[simp] theorem clockBus_deviceReads : (clockBus s).deviceReads = s.deviceReads := rfl
@[simp] theorem clockBus_accesses : (clockBus s).accesses = s.accesses := rfl
@[simp] theorem clockBus_returned : (clockBus s).returned = s.cycles := rfl
@[simp] theorem clockBus_cycles : (clockBus s).cycles = 0 := rfl
@[simp] theorem clockBus_isDevice (b : Word) : (clockBus s).isDevice b = s.isDevice b := rfl

end clockBus

/-! The flags one operation at a time. -/

@[simp] theorem Flags.setNZ_n (f : Flags) (v : Byte) : (f.setNZ v).n = v.msb := rfl
@[simp] theorem Flags.setNZ_z (f : Flags) (v : Byte) : (f.setNZ v).z = (v == 0x00#8) := rfl
@[simp] theorem Flags.setNZ_v (f : Flags) (v : Byte) : (f.setNZ v).v = f.v := rfl
@[simp] theorem Flags.setNZ_d (f : Flags) (v : Byte) : (f.setNZ v).d = f.d := rfl
@[simp] theorem Flags.setNZ_i (f : Flags) (v : Byte) : (f.setNZ v).i = f.i := rfl
@[simp] theorem Flags.setNZ_c (f : Flags) (v : Byte) : (f.setNZ v).c = f.c := rfl

end Sys2Proof.Machine
end

