-- ==== Sys2Proof/Laws/Bus.lean ====
section
/-!
SUPPORT. What each bus and stack operation leaves alone, field by field, so that no proof unfolds them.
-/

namespace Sys2Proof.Machine

section memRead

variable (a : Word) (s : State)

@[simp] theorem memRead_a : (memRead a s).2.a = s.a := rfl
@[simp] theorem memRead_x : (memRead a s).2.x = s.x := rfl
@[simp] theorem memRead_y : (memRead a s).2.y = s.y := rfl
@[simp] theorem memRead_sp : (memRead a s).2.sp = s.sp := rfl
@[simp] theorem memRead_pc : (memRead a s).2.pc = s.pc := rfl
@[simp] theorem memRead_p : (memRead a s).2.p = s.p := rfl
@[simp] theorem memRead_latch : (memRead a s).2.latch = s.latch := rfl
@[simp] theorem memRead_halted : (memRead a s).2.halted = s.halted := rfl
@[simp] theorem memRead_params : (memRead a s).2.params = s.params := rfl
@[simp] theorem memRead_mem : (memRead a s).2.mem = s.mem := rfl
@[simp] theorem memRead_windows : (memRead a s).2.windows = s.windows := rfl
@[simp] theorem memRead_clockAnswers : (memRead a s).2.clockAnswers = s.clockAnswers := rfl
@[simp] theorem memRead_returned : (memRead a s).2.returned = s.returned := rfl
@[simp] theorem memRead_isDevice (b : Word) : (memRead a s).2.isDevice b = s.isDevice b := rfl
@[simp] theorem memRead_cycles : (memRead a s).2.cycles = s.cycles + 1 := rfl
@[simp] theorem memRead_accesses : (memRead a s).2.accesses = s.accesses ++ [.read a (s.busValue a)] := rfl
@[simp] theorem memRead_fst : (memRead a s).1 = s.busValue a := rfl

end memRead

section memWrite

variable (a : Word) (v : Byte) (s : State)

@[simp] theorem memWrite_a : (memWrite a v s).a = s.a := rfl
@[simp] theorem memWrite_x : (memWrite a v s).x = s.x := rfl
@[simp] theorem memWrite_y : (memWrite a v s).y = s.y := rfl
@[simp] theorem memWrite_sp : (memWrite a v s).sp = s.sp := rfl
@[simp] theorem memWrite_pc : (memWrite a v s).pc = s.pc := rfl
@[simp] theorem memWrite_p : (memWrite a v s).p = s.p := rfl
@[simp] theorem memWrite_latch : (memWrite a v s).latch = s.latch := rfl
@[simp] theorem memWrite_halted : (memWrite a v s).halted = s.halted := rfl
@[simp] theorem memWrite_params : (memWrite a v s).params = s.params := rfl
@[simp] theorem memWrite_windows : (memWrite a v s).windows = s.windows := rfl
@[simp] theorem memWrite_deviceReads : (memWrite a v s).deviceReads = s.deviceReads := rfl
@[simp] theorem memWrite_clockAnswers : (memWrite a v s).clockAnswers = s.clockAnswers := rfl
@[simp] theorem memWrite_returned : (memWrite a v s).returned = s.returned := rfl
@[simp] theorem memWrite_isDevice (b : Word) : (memWrite a v s).isDevice b = s.isDevice b := rfl
@[simp] theorem memWrite_cycles : (memWrite a v s).cycles = s.cycles + 1 := rfl
@[simp] theorem memWrite_accesses : (memWrite a v s).accesses = s.accesses ++ [.write a v] := rfl

end memWrite

section push

variable (v : Byte) (s : State)

@[simp] theorem push_a : (push v s).a = s.a := by simp [push]
@[simp] theorem push_x : (push v s).x = s.x := by simp [push]
@[simp] theorem push_y : (push v s).y = s.y := by simp [push]
@[simp] theorem push_pc : (push v s).pc = s.pc := by simp [push]
@[simp] theorem push_p : (push v s).p = s.p := by simp [push]
@[simp] theorem push_latch : (push v s).latch = s.latch := by simp [push]
@[simp] theorem push_halted : (push v s).halted = s.halted := by simp [push]
@[simp] theorem push_params : (push v s).params = s.params := by simp [push]
@[simp] theorem push_windows : (push v s).windows = s.windows := by simp [push]
@[simp] theorem push_deviceReads : (push v s).deviceReads = s.deviceReads := by simp [push]
@[simp] theorem push_clockAnswers : (push v s).clockAnswers = s.clockAnswers := by simp [push]
@[simp] theorem push_returned : (push v s).returned = s.returned := by simp [push]
@[simp] theorem push_isDevice (b : Word) : (push v s).isDevice b = s.isDevice b := by simp [push]
@[simp] theorem push_sp : (push v s).sp = s.sp - 1 := by simp [push]
@[simp] theorem push_cycles : (push v s).cycles = s.cycles + 1 := by simp [push]
@[simp] theorem push_accesses : (push v s).accesses = s.accesses ++ [.write (stackAddr s.sp) v] := by simp [push]

end push

section pop

variable (s : State)

@[simp] theorem pop_a : (pop s).2.a = s.a := by simp [pop]
@[simp] theorem pop_x : (pop s).2.x = s.x := by simp [pop]
@[simp] theorem pop_y : (pop s).2.y = s.y := by simp [pop]
@[simp] theorem pop_pc : (pop s).2.pc = s.pc := by simp [pop]
@[simp] theorem pop_p : (pop s).2.p = s.p := by simp [pop]
@[simp] theorem pop_latch : (pop s).2.latch = s.latch := by simp [pop]
@[simp] theorem pop_halted : (pop s).2.halted = s.halted := by simp [pop]
@[simp] theorem pop_params : (pop s).2.params = s.params := by simp [pop]
@[simp] theorem pop_mem : (pop s).2.mem = s.mem := by simp [pop]
@[simp] theorem pop_windows : (pop s).2.windows = s.windows := by simp [pop]
@[simp] theorem pop_clockAnswers : (pop s).2.clockAnswers = s.clockAnswers := by simp [pop]
@[simp] theorem pop_returned : (pop s).2.returned = s.returned := by simp [pop]
@[simp] theorem pop_isDevice (b : Word) : (pop s).2.isDevice b = s.isDevice b := by simp [pop]
@[simp] theorem pop_sp : (pop s).2.sp = s.sp + 1 := by simp [pop]
@[simp] theorem pop_cycles : (pop s).2.cycles = s.cycles + 1 := by simp [pop]
@[simp] theorem pop_fst : (pop s).1 = s.busValue (stackAddr (s.sp + 1)) := by simp [pop]

end pop

section pushWord

variable (w : Word) (s : State)

@[simp] theorem pushWord_a : (pushWord w s).a = s.a := by simp [pushWord]
@[simp] theorem pushWord_x : (pushWord w s).x = s.x := by simp [pushWord]
@[simp] theorem pushWord_y : (pushWord w s).y = s.y := by simp [pushWord]
@[simp] theorem pushWord_pc : (pushWord w s).pc = s.pc := by simp [pushWord]
@[simp] theorem pushWord_p : (pushWord w s).p = s.p := by simp [pushWord]
@[simp] theorem pushWord_latch : (pushWord w s).latch = s.latch := by simp [pushWord]
@[simp] theorem pushWord_halted : (pushWord w s).halted = s.halted := by simp [pushWord]
@[simp] theorem pushWord_params : (pushWord w s).params = s.params := by simp [pushWord]
@[simp] theorem pushWord_windows : (pushWord w s).windows = s.windows := by simp [pushWord]
@[simp] theorem pushWord_deviceReads : (pushWord w s).deviceReads = s.deviceReads := by simp [pushWord]
@[simp] theorem pushWord_clockAnswers : (pushWord w s).clockAnswers = s.clockAnswers := by simp [pushWord]
@[simp] theorem pushWord_returned : (pushWord w s).returned = s.returned := by simp [pushWord]
@[simp] theorem pushWord_isDevice (b : Word) : (pushWord w s).isDevice b = s.isDevice b := by simp [pushWord]
@[simp] theorem pushWord_sp : (pushWord w s).sp = s.sp - 1 - 1 := by simp [pushWord]

end pushWord

section popWord

variable (s : State)

@[simp] theorem popWord_a : (popWord s).2.a = s.a := by simp [popWord]
@[simp] theorem popWord_x : (popWord s).2.x = s.x := by simp [popWord]
@[simp] theorem popWord_y : (popWord s).2.y = s.y := by simp [popWord]
@[simp] theorem popWord_pc : (popWord s).2.pc = s.pc := by simp [popWord]
@[simp] theorem popWord_p : (popWord s).2.p = s.p := by simp [popWord]
@[simp] theorem popWord_latch : (popWord s).2.latch = s.latch := by simp [popWord]
@[simp] theorem popWord_halted : (popWord s).2.halted = s.halted := by simp [popWord]
@[simp] theorem popWord_params : (popWord s).2.params = s.params := by simp [popWord]
@[simp] theorem popWord_mem : (popWord s).2.mem = s.mem := by simp [popWord]
@[simp] theorem popWord_windows : (popWord s).2.windows = s.windows := by simp [popWord]
@[simp] theorem popWord_clockAnswers : (popWord s).2.clockAnswers = s.clockAnswers := by simp [popWord]
@[simp] theorem popWord_returned : (popWord s).2.returned = s.returned := by simp [popWord]
@[simp] theorem popWord_isDevice (b : Word) : (popWord s).2.isDevice b = s.isDevice b := by simp [popWord]
@[simp] theorem popWord_sp : (popWord s).2.sp = s.sp + 1 + 1 := by simp [popWord]

end popWord

section fetch8

variable (s : State)

@[simp] theorem fetch8_a : (fetch8 s).2.a = s.a := by simp [fetch8]
@[simp] theorem fetch8_x : (fetch8 s).2.x = s.x := by simp [fetch8]
@[simp] theorem fetch8_y : (fetch8 s).2.y = s.y := by simp [fetch8]
@[simp] theorem fetch8_sp : (fetch8 s).2.sp = s.sp := by simp [fetch8]
@[simp] theorem fetch8_p : (fetch8 s).2.p = s.p := by simp [fetch8]
@[simp] theorem fetch8_latch : (fetch8 s).2.latch = s.latch := by simp [fetch8]
@[simp] theorem fetch8_halted : (fetch8 s).2.halted = s.halted := by simp [fetch8]
@[simp] theorem fetch8_params : (fetch8 s).2.params = s.params := by simp [fetch8]
@[simp] theorem fetch8_mem : (fetch8 s).2.mem = s.mem := by simp [fetch8]
@[simp] theorem fetch8_windows : (fetch8 s).2.windows = s.windows := by simp [fetch8]
@[simp] theorem fetch8_clockAnswers : (fetch8 s).2.clockAnswers = s.clockAnswers := by simp [fetch8]
@[simp] theorem fetch8_returned : (fetch8 s).2.returned = s.returned := by simp [fetch8]
@[simp] theorem fetch8_isDevice (b : Word) : (fetch8 s).2.isDevice b = s.isDevice b := by simp [fetch8]
@[simp] theorem fetch8_pc : (fetch8 s).2.pc = s.pc + 1 := by simp [fetch8]
@[simp] theorem fetch8_fst : (fetch8 s).1 = s.busValue s.pc := by simp [fetch8]
@[simp] theorem fetch8_cycles : (fetch8 s).2.cycles = s.cycles + 1 := by simp [fetch8]

end fetch8

section readPair

variable (aLo aHi : Word) (s : State)

@[simp] theorem readPair_a : (readPair aLo aHi s).2.a = s.a := by simp [readPair]
@[simp] theorem readPair_x : (readPair aLo aHi s).2.x = s.x := by simp [readPair]
@[simp] theorem readPair_y : (readPair aLo aHi s).2.y = s.y := by simp [readPair]
@[simp] theorem readPair_sp : (readPair aLo aHi s).2.sp = s.sp := by simp [readPair]
@[simp] theorem readPair_pc : (readPair aLo aHi s).2.pc = s.pc := by simp [readPair]
@[simp] theorem readPair_p : (readPair aLo aHi s).2.p = s.p := by simp [readPair]
@[simp] theorem readPair_latch : (readPair aLo aHi s).2.latch = s.latch := by simp [readPair]
@[simp] theorem readPair_halted : (readPair aLo aHi s).2.halted = s.halted := by simp [readPair]
@[simp] theorem readPair_params : (readPair aLo aHi s).2.params = s.params := by simp [readPair]
@[simp] theorem readPair_mem : (readPair aLo aHi s).2.mem = s.mem := by simp [readPair]
@[simp] theorem readPair_windows : (readPair aLo aHi s).2.windows = s.windows := by simp [readPair]
@[simp] theorem readPair_clockAnswers : (readPair aLo aHi s).2.clockAnswers = s.clockAnswers := by simp [readPair]
@[simp] theorem readPair_returned : (readPair aLo aHi s).2.returned = s.returned := by simp [readPair]
@[simp] theorem readPair_isDevice (b : Word) : (readPair aLo aHi s).2.isDevice b = s.isDevice b := by simp [readPair]

end readPair

section takeEntry

variable (b : Bool) (w v : Word) (s : State)

@[simp] theorem takeEntry_a : (takeEntry b w v s).a = s.a := by simp [takeEntry, read16]
@[simp] theorem takeEntry_x : (takeEntry b w v s).x = s.x := by simp [takeEntry, read16]
@[simp] theorem takeEntry_y : (takeEntry b w v s).y = s.y := by simp [takeEntry, read16]
@[simp] theorem takeEntry_latch : (takeEntry b w v s).latch = s.latch := by simp [takeEntry, read16]
@[simp] theorem takeEntry_halted : (takeEntry b w v s).halted = s.halted := by simp [takeEntry, read16]
@[simp] theorem takeEntry_params : (takeEntry b w v s).params = s.params := by simp [takeEntry, read16]
@[simp] theorem takeEntry_windows : (takeEntry b w v s).windows = s.windows := by simp [takeEntry, read16]
@[simp] theorem takeEntry_clockAnswers : (takeEntry b w v s).clockAnswers = s.clockAnswers := by simp [takeEntry, read16]
@[simp] theorem takeEntry_returned : (takeEntry b w v s).returned = s.returned := by simp [takeEntry, read16]
@[simp] theorem takeEntry_isDevice (a : Word) : (takeEntry b w v s).isDevice a = s.isDevice a := by simp [takeEntry, read16]
@[simp] theorem takeEntry_sp : (takeEntry b w v s).sp = s.sp - 1 - 1 - 1 := by simp [takeEntry, read16]
@[simp] theorem takeEntry_p : (takeEntry b w v s).p = { s.p with i := true, d := false } := by simp [takeEntry, read16]

end takeEntry

end Sys2Proof.Machine
end

