-- ==== Sys2Proof/Laws/Memory.lean ====
section
/-!
SUPPORT. The laws of memory: a read after a write, and that every write keeps the canonical form.
-/

namespace Sys2Proof.Machine

/-- Every address listed in `m` is above `a`. -/
def Memory.above (a : Nat) (m : Memory) : Prop := ∀ p ∈ m, a < p.1

theorem Memory.above_cons {a k : Nat} {v : Byte} {m : Memory} :
    Memory.above a ((k, v) :: m) ↔ a < k ∧ Memory.above a m := by
  simp only [Memory.above, List.mem_cons, forall_eq_or_imp]

@[simp] theorem Memory.read_nil (a : Nat) : Memory.read [] a = unwrittenByte := rfl

theorem Memory.read_cons (k : Nat) (v : Byte) (m : Memory) (a : Nat) :
    Memory.read ((k, v) :: m) a = if k = a then v else Memory.read m a := rfl

theorem Memory.read_of_above {a : Nat} {m : Memory} (h : Memory.above a m) : m.read a = unwrittenByte := by
  induction m with
  | nil => rfl
  | cons p m ih =>
    have hp : a < p.1 := h p (by simp)
    rw [Memory.read_cons, if_neg (by omega), ih fun q hq => h q (by simp [hq])]

theorem Memory.wf_iff (m : Memory) :
    m.wf = true ↔ m.Pairwise (fun p q => p.1 < q.1) ∧ ∀ p ∈ m, p.1 < 0x10000 ∧ p.2 ≠ unwrittenByte := by
  simp [Memory.wf]

theorem Memory.wf_cons (k : Nat) (v : Byte) (m : Memory) :
    Memory.wf ((k, v) :: m) = true ↔
      Memory.above k m ∧ k < 0x10000 ∧ v ≠ unwrittenByte ∧ Memory.wf m = true := by
  simp only [Memory.wf_iff, List.pairwise_cons, List.mem_cons, forall_eq_or_imp, Memory.above]
  tauto

/-- A write leaves every other address alone, whatever the list. -/
theorem Memory.read_write_ne {m : Memory} {a b : Nat} (v : Byte) (h : b ≠ a) : (m.write a v).read b = m.read b := by
  induction m with
  | nil =>
    simp only [Memory.write]
    split <;> simp [Memory.read_cons, h.symm]
  | cons p m ih =>
    obtain ⟨k, w⟩ := p
    simp only [Memory.write]
    split_ifs with h1 h2 h3 h4
    · rfl
    · rw [Memory.read_cons, if_neg h.symm]
    · rw [Memory.read_cons, if_neg (h3 ▸ h.symm)]
    · rw [Memory.read_cons, Memory.read_cons, if_neg h.symm, if_neg (h3 ▸ h.symm)]
    · rw [Memory.read_cons, Memory.read_cons, ih]

/-- In a memory of canonical form a byte reads as what was last written to it. -/
theorem Memory.read_write_same {m : Memory} (a : Nat) (v : Byte) (hm : m.wf = true) : (m.write a v).read a = v := by
  induction m with
  | nil =>
    simp only [Memory.write]
    split <;> simp_all [Memory.read_cons]
  | cons p m ih =>
    obtain ⟨k, w⟩ := p
    obtain ⟨habove, -, -, hwf⟩ := (Memory.wf_cons k w m).1 hm
    simp only [Memory.write]
    split_ifs with h1 h2 h3 h4
    · rw [Memory.read_cons, if_neg (by omega), Memory.read_of_above, h2]
      exact fun q hq => h1.trans (habove q hq)
    · rw [Memory.read_cons, if_pos rfl]
    · rw [Memory.read_of_above (h3 ▸ habove), h4]
    · rw [Memory.read_cons, if_pos rfl]
    · rw [Memory.read_cons, if_neg (Ne.symm h3), ih hwf]

theorem Memory.above_write {m : Memory} {a k : Nat} {v : Byte} (hk : k < a) (h : Memory.above k m) :
    Memory.above k (m.write a v) := by
  induction m with
  | nil =>
    simp only [Memory.write]
    split <;> simp [Memory.above, hk]
  | cons p m ih =>
    obtain ⟨j, w⟩ := p
    obtain ⟨hj, hm⟩ := Memory.above_cons.1 h
    simp only [Memory.write]
    split_ifs
    · exact h
    · exact Memory.above_cons.2 ⟨hk, h⟩
    · exact hm
    · exact Memory.above_cons.2 ⟨hk, hm⟩
    · exact Memory.above_cons.2 ⟨hj, ih hm⟩

/-- Every write inside the address space keeps the canonical form. -/
theorem Memory.write_wf {m : Memory} {a : Nat} (v : Byte) (hm : m.wf = true) (ha : a < 0x10000) :
    (m.write a v).wf = true := by
  induction m with
  | nil =>
    simp only [Memory.write]
    split
    · rfl
    · next h => exact (Memory.wf_cons ..).2 ⟨by simp [Memory.above], ha, h, rfl⟩
  | cons p m ih =>
    obtain ⟨k, w⟩ := p
    have hcons := (Memory.wf_cons k w m).1 hm
    obtain ⟨habove, hk, hw, hwf⟩ := hcons
    simp only [Memory.write]
    split_ifs with h1 h2 h3 h4
    · exact hm
    · refine (Memory.wf_cons ..).2 ⟨?_, ha, h2, hm⟩
      simp only [Memory.above, List.mem_cons, forall_eq_or_imp]
      exact ⟨h1, fun q hq => h1.trans (habove q hq)⟩
    · exact hwf
    · exact (Memory.wf_cons ..).2 ⟨h3 ▸ habove, ha, h4, hwf⟩
    · exact (Memory.wf_cons ..).2 ⟨Memory.above_write (by omega) habove, hk, hw, ih hwf⟩

/-- A run of writes at 16-bit addresses keeps the canonical form. -/
theorem Memory.foldl_write_wf (ws : List (Word × Byte)) {m : Memory} (hm : m.wf = true) :
    (ws.foldl (fun m w => m.write w.1.toNat w.2) m).wf = true := by
  induction ws generalizing m with
  | nil => exact hm
  | cons w ws ih => exact ih (Memory.write_wf w.2 hm w.1.isLt)

/-- Two memories of canonical form that read alike are equal. -/
theorem Memory.ext_of_wf {m m' : Memory} (hm : m.wf = true) (hm' : m'.wf = true) (h : ∀ a, m.read a = m'.read a) :
    m = m' := by
  induction m generalizing m' with
  | nil =>
    cases m' with
    | nil => rfl
    | cons q m' =>
      obtain ⟨k, v⟩ := q
      have := h k
      rw [Memory.read_nil, Memory.read_cons, if_pos rfl] at this
      exact absurd this.symm ((Memory.wf_cons ..).1 hm').2.2.1
  | cons p m ih =>
    obtain ⟨k, v⟩ := p
    obtain ⟨ha, -, hv, hw⟩ := (Memory.wf_cons ..).1 hm
    cases m' with
    | nil =>
      have := h k
      rw [Memory.read_nil, Memory.read_cons, if_pos rfl] at this
      exact absurd this hv
    | cons q m' =>
      obtain ⟨j, u⟩ := q
      obtain ⟨ha', -, hu, hw'⟩ := (Memory.wf_cons ..).1 hm'
      have hkj : k = j := by
        rcases Nat.lt_trichotomy k j with hlt | heq | hgt
        · have := h k
          rw [Memory.read_cons, if_pos rfl, Memory.read_cons, if_neg (by omega),
            Memory.read_of_above fun q hq => hlt.trans (ha' q hq)] at this
          exact absurd this hv
        · exact heq
        · have := h j
          rw [Memory.read_cons, if_neg (by omega), Memory.read_cons, if_pos rfl,
            Memory.read_of_above fun q hq => Nat.lt_trans hgt (ha q hq)] at this
          exact absurd this.symm hu
      subst hkj
      have huv : v = u := by simpa [Memory.read_cons] using h k
      subst huv
      congr 1
      refine ih hw hw' fun a => ?_
      by_cases hak : k = a
      · subst hak
        rw [Memory.read_of_above ha, Memory.read_of_above ha']
      · simpa [Memory.read_cons, hak] using h a

end Sys2Proof.Machine
end

