-- ==== Sys2Proof/Laws/Ops.lean ====
section
/-!
SUPPORT. One lemma for each shared operation, saying everything it can do; later proofs cite these and do not unfold
the operations.
-/

namespace Sys2Proof.Machine

/-! ## Reads -/

theorem AfterReads.refl (s : State) : AfterReads [] s s := by
  refine ⟨by simp, ?_⟩
  simp

theorem AfterReads.trans {l k : List BusAccess} {s t u : State} (h : AfterReads l s t) (h' : AfterReads k t u) :
    AfterReads (l ++ k) s u := by
  obtain ⟨hl, ht⟩ := h
  obtain ⟨hk, hu⟩ := h'
  refine ⟨fun x hx => (List.mem_append.1 hx).elim (hl x) (hk x), ?_⟩
  rw [hu, ht]
  simp [BitVec.ofNat_add, BitVec.add_assoc]

theorem AfterReads.a_eq {l : List BusAccess} {s t : State} (h : AfterReads l s t) : t.a = s.a := by
  rw [h.2]

theorem AfterReads.x_eq {l : List BusAccess} {s t : State} (h : AfterReads l s t) : t.x = s.x := by
  rw [h.2]

theorem AfterReads.y_eq {l : List BusAccess} {s t : State} (h : AfterReads l s t) : t.y = s.y := by
  rw [h.2]

theorem AfterReads.sp_eq {l : List BusAccess} {s t : State} (h : AfterReads l s t) : t.sp = s.sp := by
  rw [h.2]

theorem AfterReads.pc_eq {l : List BusAccess} {s t : State} (h : AfterReads l s t) : t.pc = s.pc := by
  rw [h.2]

theorem AfterReads.p_eq {l : List BusAccess} {s t : State} (h : AfterReads l s t) : t.p = s.p := by
  rw [h.2]

theorem AfterReads.latch_eq {l : List BusAccess} {s t : State} (h : AfterReads l s t) : t.latch = s.latch := by
  rw [h.2]

theorem AfterReads.halted_eq {l : List BusAccess} {s t : State} (h : AfterReads l s t) : t.halted = s.halted := by
  rw [h.2]

theorem AfterReads.params_eq {l : List BusAccess} {s t : State} (h : AfterReads l s t) : t.params = s.params := by
  rw [h.2]

theorem AfterReads.mem_eq {l : List BusAccess} {s t : State} (h : AfterReads l s t) : t.mem = s.mem := by
  rw [h.2]

theorem AfterReads.windows_eq {l : List BusAccess} {s t : State} (h : AfterReads l s t) : t.windows = s.windows := by
  rw [h.2]

theorem AfterReads.clockAnswers_eq {l : List BusAccess} {s t : State} (h : AfterReads l s t) : t.clockAnswers = s.clockAnswers := by
  rw [h.2]

theorem AfterReads.returned_eq {l : List BusAccess} {s t : State} (h : AfterReads l s t) : t.returned = s.returned := by
  rw [h.2]

theorem AfterReads.accesses_eq {l : List BusAccess} {s t : State} (h : AfterReads l s t) :
    t.accesses = s.accesses ++ l := by
  rw [h.2]

theorem AfterReads.cycles_eq {l : List BusAccess} {s t : State} (h : AfterReads l s t) :
    t.cycles = s.cycles + BitVec.ofNat 32 l.length := by
  rw [h.2]

theorem AfterReads.isDevice_eq {l : List BusAccess} {s t : State} (h : AfterReads l s t) (a : Word) :
    t.isDevice a = s.isDevice a := by
  simp only [State.isDevice, h.windows_eq]

theorem AfterReads.inv {l : List BusAccess} {s t : State} (h : AfterReads l s t) (hs : s.Inv) : t.Inv := by
  simpa only [State.Inv, h.mem_eq] using hs

theorem AfterReads.readsRam {l : List BusAccess} {s t : State} (h : AfterReads l s t) {a : Word} {v : Byte}
    (hv : ReadsRam t a v) : ReadsRam s a v := by
  intro ha
  have := hv (by simpa only [State.isRam, h.isDevice_eq] using ha)
  rwa [h.mem_eq] at this

theorem busValue_ram {s : State} {a : Word} (h : s.isRam a) : s.busValue a = s.mem.read a.toNat := by
  simp [State.busValue, show s.isDevice a = false from h]

/-- `MemRead` (R11): one recorded access, one tick, nothing else. -/
theorem memRead_afterReads (a : Word) (s : State) :
    AfterReads [.read a (s.busValue a)] s (memRead a s).2 := by
  refine ⟨by simp [BusAccess.isRead], ?_⟩
  simp [memRead, busRead, tick]

theorem memRead_inv {s : State} (a : Word) (hs : s.Inv) : (memRead a s).2.Inv := (memRead_afterReads a s).inv hs

@[simp] theorem setP_inv {s : State} {f : Flags} : (s.setP f).Inv ↔ s.Inv := Iff.rfl

@[simp] theorem setPc_inv {s : State} {w : Word} : (s.setPc w).Inv ↔ s.Inv := Iff.rfl

@[simp] theorem setLatch_inv {s : State} {l : Latch} : (s.setLatch l).Inv ↔ s.Inv := Iff.rfl

theorem memRead_readsRam (a : Word) (s : State) : ReadsRam s a (s.busValue a) := busValue_ram

/-- Two byte reads, the low byte's first (D5). -/
theorem readPair_afterReads (aLo aHi : Word) (s : State) :
    ∃ lo hi : Byte, AfterReads [.read aLo lo, .read aHi hi] s (readPair aLo aHi s).2
      ∧ (readPair aLo aHi s).1 = joinBytes hi lo ∧ ReadsRam s aLo lo ∧ ReadsRam s aHi hi := by
  have h1 := memRead_afterReads aLo s
  have h2 := memRead_afterReads aHi (memRead aLo s).2
  exact ⟨_, _, h1.trans h2, rfl, memRead_readsRam aLo s, h1.readsRam (memRead_readsRam aHi _)⟩

/-- Two byte reads with the values they record. -/
theorem readPair_pairReads (aLo aHi : Word) (s : State) : AfterReads (pairReads aLo aHi s) s (readPair aLo aHi s).2 :=
  (memRead_afterReads aLo s).trans (memRead_afterReads aHi (memRead aLo s).2)

theorem readPair_inv {s : State} (aLo aHi : Word) (hs : s.Inv) : (readPair aLo aHi s).2.Inv :=
  memRead_inv _ (memRead_inv _ hs)

@[simp] theorem pairReads_length (aLo aHi : Word) (s : State) : (pairReads aLo aHi s).length = 2 := rfl

/-- A mode makes two pointer reads, or none. -/
theorem pointerReads_length (m : Addr) (s : State) :
    (pointerReads m s).length = if (zeroPagePointer m s).isSome then 2 else 0 := by
  cases m <;> rfl

theorem loadReads_length_mem (m : Addr) (s : State) :
    (loadReads (.mem m) s).length = (pointerReads m s).length + 1 := List.length_append

/-- The resolver makes the pointer reads of its mode and changes nothing (R130). -/
theorem resolve_afterReads (m : Addr) (s : State) : AfterReads (pointerReads m s) s (resolve m s).2 := by
  cases m with
  | zp _ | zpX _ | zpY _ | abs _ | absX _ | absY _ => exact AfterReads.refl s
  | indX _ | indY _ | ind _ => exact readPair_pairReads _ _ s

/-- `load` (R131) makes the reads of its mode and changes nothing. -/
theorem load_afterReads (src : Src) (s : State) : AfterReads (loadReads src s) s (load src s).2 := by
  cases src with
  | imm _ => exact AfterReads.refl s
  | mem m => exact (resolve_afterReads m s).trans (memRead_afterReads _ _)

/-- JMP's pointer reads (R289, R290, R341). -/
theorem jumpTarget_afterReads (t : Target) (s : State) : AfterReads (targetReads t s) s (jumpTarget t s).2 := by
  cases t with
  | abs _ => exact AfterReads.refl s
  | ind _ | indX _ => exact readPair_pairReads _ _ s

theorem targetReads_length (t : Target) (s : State) : (targetReads t s).length = targetTicks t - 3 := by
  cases t <;> rfl

/-- `load` leaves every register and flag, so operations over it read them from the state before. -/
theorem load_frame (src : Src) (s : State) : (load src s).2.a = s.a ∧ (load src s).2.x = s.x ∧ (load src s).2.y = s.y
    ∧ (load src s).2.p = s.p ∧ (load src s).2.params = s.params ∧ (load src s).2.mem = s.mem := by
  have h := load_afterReads src s
  exact ⟨h.a_eq, h.x_eq, h.y_eq, h.p_eq, h.params_eq, h.mem_eq⟩

/-- `accumulate`: A and P alone change after the reads of the mode. -/
theorem accumulate_eq (f : Byte → Byte → Flags → Byte × Flags) (src : Src) (s : State) :
    accumulate f src s = { (load src s).2 with
      a := (f s.a (load src s).1 s.p).1
      p := (f s.a (load src s).1 s.p).2 } := by
  obtain ⟨ha, -, -, hp, -⟩ := load_frame src s
  simp only [accumulate, ha, hp, State.setA, State.setP]

/-- `compareRegister`: P alone changes after the reads of the mode. -/
theorem compareRegister_eq (reg : Byte) (src : Src) (s : State) :
    compareRegister reg src s = { (load src s).2 with p := compareFlags reg (load src s).1 s.p } := by
  obtain ⟨-, -, -, hp, -⟩ := load_frame src s
  simp only [compareRegister, hp, State.setP]

/-- The branch target in the spec's own terms (R146). -/
theorem add_signExtend16 (pc : Word) (d : Byte) : pc + signExtend16 d = branchTarget pc d := by
  have e : signExtend16 d = BitVec.ofInt 16 d.toInt := rfl
  rw [branchTarget, BitVec.ofInt_add, e]
  congr 1
  simp

/-- `branchIf` (R280). -/
theorem branchIf_eq (cond : Bool) (d : Byte) (s : State) :
    branchIf cond d s = if cond then { s with pc := branchTarget s.pc d } else s := by
  simp only [branchIf, State.setPc, add_signExtend16]

/-! ## Writes -/

theorem busWrite_inv {s : State} (a : Word) (v : Byte) (hs : s.Inv) : (busWrite a v s).Inv := by
  simp only [State.Inv, busWrite]
  split
  · exact hs
  · exact Memory.write_wf v hs a.isLt

/-- `MemWrite` (R11) keeps the invariant. -/
theorem memWrite_inv {s : State} (a : Word) (v : Byte) (hs : s.Inv) : (memWrite a v s).Inv := busWrite_inv a v hs

/-- `MemWrite` (R11): one recorded access, one tick, one byte of RAM. -/
theorem memWrite_afterWrite {s : State} (a : Word) (v : Byte) (hs : s.Inv) : AfterWrite a v s (memWrite a v s) := by
  refine ⟨rfl, fun b hb => ?_, ?_⟩
  · simp only [memWrite, busWrite, tick_mem]
    split
    · rfl
    · exact Memory.read_write_ne v hb
  · simp only [memWrite, busWrite, tick_mem]
    split
    · rfl
    · exact Memory.read_write_same _ v hs

/-- `store` (R131): the pointer reads of its mode, then one write of the effective address. -/
theorem store_storesByte {s : State} (m : Addr) (v : Byte) (hs : s.Inv) :
    StoresByte (pointerReads m s) (resolve m s).1 v s (store m v s) :=
  ⟨_, resolve_afterReads m s, memWrite_afterWrite _ v ((resolve_afterReads m s).inv hs)⟩

theorem store_inv {s : State} (m : Addr) (v : Byte) (hs : s.Inv) : (store m v s).Inv :=
  memWrite_inv _ v ((resolve_afterReads m s).inv hs)

/-- `rmw` (R131) keeps the invariant. -/
theorem rmw_inv {s : State} (m : Addr) (f : Byte → Flags → Byte × Flags) (hs : s.Inv) : (rmw m f s).Inv :=
  memWrite_inv _ _ (setP_inv.2 (memRead_inv _ ((resolve_afterReads m s).inv hs)))

theorem modifyLoc_inv {s : State} (loc : Loc) (f : Byte → Flags → Byte × Flags) (hs : s.Inv) : (modifyLoc loc f s).Inv := by
  cases loc with
  | acc => exact hs
  | mem m => exact rmw_inv m f hs

/-! ## The stack -/

theorem push_inv {s : State} (v : Byte) (hs : s.Inv) : (push v s).Inv := memWrite_inv _ v hs

/-- `push` (R12): write at `0x0100 | SP`, then decrement SP in 8 bits. -/
theorem push_afterWrite {s : State} (v : Byte) (hs : s.Inv) :
    AfterWrite (stackAddr s.sp) v { s with sp := s.sp - 1 } (push v s) :=
  memWrite_afterWrite (s := { s with sp := s.sp - 1 }) (stackAddr s.sp) v hs

/-- `push`, field by field. -/
theorem push_eq (v : Byte) (s : State) : push v s = { s with
    sp       := s.sp - 1
    cycles   := s.cycles + 1
    mem      := (push v s).mem
    accesses := s.accesses ++ [.write (stackAddr s.sp) v] } := rfl

theorem push_read_ne {s : State} {v : Byte} {a : Nat} (hs : s.Inv) (h : a ≠ (stackAddr s.sp).toNat) :
    (push v s).mem.read a = s.mem.read a := (push_afterWrite v hs).2.1 a h

theorem push_read_same {s : State} {v : Byte} (hs : s.Inv) (hr : s.isRam (stackAddr s.sp)) :
    (push v s).mem.read (stackAddr s.sp).toNat = v :=
  (push_afterWrite v hs).2.2.trans (if_neg (Bool.eq_false_iff.1 hr))

/-- `pop` (R12): increment SP in 8 bits, then read at `0x0100 | SP`. -/
theorem pop_afterReads (s : State) :
    ∃ v : Byte, AfterReads [.read (stackAddr (s.sp + 1)) v] { s with sp := s.sp + 1 } (pop s).2
      ∧ (pop s).1 = v ∧ ReadsRam s (stackAddr (s.sp + 1)) v :=
  ⟨_, memRead_afterReads _ _, rfl, memRead_readsRam (stackAddr (s.sp + 1)) s⟩

theorem pushWord_inv {s : State} (w : Word) (hs : s.Inv) : (pushWord w s).Inv := push_inv _ (push_inv _ hs)

theorem takeEntry_inv {s : State} (b : Bool) (ret vector : Word) (hs : s.Inv) : (takeEntry b ret vector s).Inv :=
  setPc_inv.2 (readPair_inv _ _ (setP_inv.2 (push_inv _ (pushWord_inv ret hs))))

theorem enterInterrupt_inv {s : State} (src : Source) (hs : s.Inv) : (enterInterrupt src s).Inv :=
  takeEntry_inv _ _ _ (setLatch_inv.2 hs)

theorem softwareInterrupt_inv {s : State} (hs : s.Inv) : (softwareInterrupt s).Inv := by
  refine takeEntry_inv _ _ _ ?_
  split <;> exact hs

theorem pop_inv {s : State} (hs : s.Inv) : (pop s).2.Inv := by
  obtain ⟨v, h, -⟩ := pop_afterReads s
  exact h.inv hs

theorem popWord_inv {s : State} (hs : s.Inv) : (popWord s).2.Inv := pop_inv (pop_inv hs)

theorem returnFromInterrupt_inv {s : State} (hs : s.Inv) : (returnFromInterrupt s).Inv :=
  setPc_inv.2 (popWord_inv (setP_inv.2 (pop_inv hs)))

/-! ## Fetch and the end of a step -/

/-- `fetch8` (R12): one read at PC, then PC + 1. -/
theorem fetch8_afterReads (s : State) :
    AfterReads [.read s.pc (s.busValue s.pc)] { s with pc := s.pc + 1 } (fetch8 s).2 := by
  have h := memRead_afterReads s.pc s
  refine ⟨h.1, ?_⟩
  simp only [fetch8, State.setPc]
  rw [h.2]

theorem fetch8_inv {s : State} (hs : s.Inv) : (fetch8 s).2.Inv := (fetch8_afterReads s).inv hs

theorem fetchOperands_inv {s : State} (sh : Shape) (hs : s.Inv) : (fetchOperands sh s).2.Inv := by
  cases sh with
  | bare _ => exact hs
  | byte _ => exact fetch8_inv hs
  | word _ | zpRel _ => exact fetch8_inv (fetch8_inv hs)

theorem fetchInstr_inv {s : State} (hs : s.Inv) : (fetchInstr s).2.Inv := by
  simp only [fetchInstr]
  split
  · exact fetch8_inv hs
  · exact fetchOperands_inv _ (fetch8_inv hs)

/-- The bus clock keeps the invariant: devices change memory byte by byte (R63). -/
theorem clockBus_inv {s : State} (hs : s.Inv) : (clockBus s).Inv := Memory.foldl_write_wf _ hs

end Sys2Proof.Machine
end

