-- ==== Sys2Proof/Laws/Entry.lean ====
section
/-!
SUPPORT. The sequences of several bus accesses: read-modify-write, the two-byte push and pop, entering a handler, and
the vector read of construction and reset.
-/

namespace Sys2Proof.Machine

/-- `rmw` and its accumulator form (R131, R254): everything they do. -/
theorem modifyLoc_modifies {s : State} (loc : Loc) (f : Byte → Flags → Byte × Flags) (hs : s.Inv) :
    Modifies loc f s (modifyLoc loc f s) := by
  cases loc with
  | acc => rfl
  | mem m =>
    have h := load_afterReads (.mem m) s
    have hw := memWrite_afterWrite (resolve m s).1 (f (load (.mem m) s).1 s.p).1
      (setP_inv (f := (f (load (.mem m) s).1 s.p).2).2 (h.inv hs))
    have he : modifyLoc (.mem m) f s = memWrite (resolve m s).1 (f (load (.mem m) s).1 s.p).1
        ((load (.mem m) s).2.setP (f (load (.mem m) s).1 s.p).2) := by
      simp only [← h.p_eq]
      rfl
    refine ⟨(load (.mem m) s).2.setP (f (load (.mem m) s).1 s.p).2, ⟨h.1, ?_⟩, he ▸ hw⟩
    rw [h.2]
    rfl

/-- A two-byte push (R291, R294, R406): the high byte at SP, the low byte below it. -/
theorem pushWord_afterWrites {s : State} (w : Word) (hs : s.Inv) :
    pushWord w s = { s with
        sp       := s.sp - 2
        cycles   := s.cycles + 2
        mem      := (pushWord w s).mem
        accesses := s.accesses ++
          [.write (stackAddr s.sp) (highByte w), .write (stackAddr (s.sp - 1)) (lowByte w)] }
      ∧ (∀ a : Nat, a ≠ (stackAddr s.sp).toNat → a ≠ (stackAddr (s.sp - 1)).toNat →
          (pushWord w s).mem.read a = s.mem.read a)
      ∧ (s.isRam (stackAddr s.sp) → (pushWord w s).mem.read (stackAddr s.sp).toNat = highByte w)
      ∧ (s.isRam (stackAddr (s.sp - 1)) → (pushWord w s).mem.read (stackAddr (s.sp - 1)).toNat = lowByte w) := by
  have hu := push_inv (highByte w) hs
  have hsp : (push (highByte w) s).sp = s.sp - 1 := push_sp _ _
  have hne : (stackAddr s.sp).toNat ≠ (stackAddr (s.sp - 1)).toNat := by rw [Ne, stackAddr_inj]; bv_omega
  have hk : ∀ a : Nat, a ≠ (stackAddr (s.sp - 1)).toNat →
      (pushWord w s).mem.read a = (push (highByte w) s).mem.read a := fun a ha => push_read_ne hu (hsp ▸ ha)
  refine ⟨?_, fun a ha hb => (hk a hb).trans (push_read_ne hs ha), fun hr => (hk _ hne).trans (push_read_same hs hr),
    fun hr => push_read_same (s := push (highByte w) s) hu hr⟩
  rw [show pushWord w s = push (lowByte w) (push (highByte w) s) from rfl, push_eq (lowByte w), push_eq (highByte w) s]
  simp only [BitVec.sub_sub, BitVec.add_assoc, List.append_assoc]
  rfl

/-- A two-byte pop (R292, R293): the low byte above SP, then the high byte above it. -/
theorem popWord_afterReads (s : State) : ∃ lo hi : Byte,
    AfterReads [.read (stackAddr (s.sp + 1)) lo, .read (stackAddr (s.sp + 2)) hi] { s with sp := s.sp + 2 } (popWord s).2
      ∧ (popWord s).1 = joinBytes hi lo
      ∧ ReadsRam s (stackAddr (s.sp + 1)) lo ∧ ReadsRam s (stackAddr (s.sp + 2)) hi := by
  obtain ⟨lo, h1, h2, h3⟩ := pop_afterReads s
  obtain ⟨hi, k1, k2, k3⟩ := pop_afterReads (pop s).2
  have e : (pop s).2.sp + 1 = s.sp + 2 := by rw [pop_sp]; bv_omega
  rw [e] at k1 k3
  refine ⟨lo, hi, ?_, by unfold popWord; simp only [h2, k2], h3, h1.readsRam k3⟩
  refine AfterReads.trans (t := { (pop s).2 with sp := s.sp + 2 }) ⟨h1.1, ?_⟩ k1
  rw [h1.2]

/-- The three pushes of an entry (R294, R406). -/
theorem entryPushes_afterWrites {s : State} (b : Bool) (ret : Word) (hs : s.Inv) :
    push (s.p.toByte b) (pushWord ret s) = { s with
        sp       := s.sp - 3
        cycles   := s.cycles + 3
        mem      := (push (s.p.toByte b) (pushWord ret s)).mem
        accesses := s.accesses ++
          [.write (stackAddr s.sp) (highByte ret), .write (stackAddr (s.sp - 1)) (lowByte ret),
           .write (stackAddr (s.sp - 2)) (s.p.toByte b)] }
      ∧ (∀ a : Nat, a ≠ (stackAddr s.sp).toNat → a ≠ (stackAddr (s.sp - 1)).toNat → a ≠ (stackAddr (s.sp - 2)).toNat →
          (push (s.p.toByte b) (pushWord ret s)).mem.read a = s.mem.read a)
      ∧ (s.isRam (stackAddr s.sp) →
          (push (s.p.toByte b) (pushWord ret s)).mem.read (stackAddr s.sp).toNat = highByte ret)
      ∧ (s.isRam (stackAddr (s.sp - 1)) →
          (push (s.p.toByte b) (pushWord ret s)).mem.read (stackAddr (s.sp - 1)).toNat = lowByte ret)
      ∧ (s.isRam (stackAddr (s.sp - 2)) →
          (push (s.p.toByte b) (pushWord ret s)).mem.read (stackAddr (s.sp - 2)).toNat = s.p.toByte b) := by
  obtain ⟨h1, h2, h3, h4⟩ := pushWord_afterWrites ret hs
  have hu := pushWord_inv ret hs
  have hsp : (pushWord ret s).sp = s.sp - 2 := by rw [pushWord_sp]; bv_omega
  have hk : ∀ a : Nat, a ≠ (stackAddr (s.sp - 2)).toNat →
      (push (s.p.toByte b) (pushWord ret s)).mem.read a = (pushWord ret s).mem.read a :=
    fun a ha => push_read_ne hu (hsp ▸ ha)
  refine ⟨?_, fun a ha hb hc => (hk a hc).trans (h2 a ha hb), fun hr => ?_, fun hr => ?_, fun hr => ?_⟩
  · rw [push_eq, hsp, h1]
    simp only [BitVec.sub_sub, BitVec.add_assoc, List.append_assoc]
    rfl
  · rw [hk _ (by rw [Ne, stackAddr_inj]; bv_omega), h3 hr]
  · rw [hk _ (by rw [Ne, stackAddr_inj]; bv_omega), h4 hr]
  · rw [← hsp]
    exact push_read_same hu ((pushWord_isDevice ret s _).trans (hsp ▸ hr))

/-- Taking an entry whose vector lies in the last page (R294, R406): everything it does. -/
theorem takeEntry_entersHandler {s : State} (b : Bool) (ret vector : Word) (hs : s.Inv)
    (hv : vector = nmiVector ∨ vector = irqVector) : EntersHandler b ret vector s (takeEntry b ret vector s) := by
  obtain ⟨h1, h2, h3, h4, h5⟩ := entryPushes_afterWrites b ret hs
  have he : takeEntry b ret vector s = (fun r : Word × State => r.2.setPc r.1)
      (readPair vector (vector + 1) ((push (s.p.toByte b) (pushWord ret s)).setP
        { (push (s.p.toByte b) (pushWord ret s)).p with i := true, d := false })) := by
    simp only [takeEntry, pushWord_p]
    rfl
  rw [he]
  generalize push (s.p.toByte b) (pushWord ret s) = u at *
  obtain ⟨lo, hi, m1, m2, m3, m4⟩ := readPair_afterReads vector (vector + 1) (u.setP { u.p with i := true, d := false })
  generalize readPair vector (vector + 1) (u.setP { u.p with i := true, d := false }) = r at *
  have hmem : (r.2.setPc r.1).mem = u.mem := m1.mem_eq
  have hvec : 0xFF00 ≤ vector.toNat ∧ 0xFF00 ≤ (vector + 1).toNat := by rcases hv with rfl | rfl <;> decide
  have hstack : ∀ p, (stackAddr p).toNat < 0x200 := fun p => by rw [stackAddr_toNat]; have := p.isLt; omega
  have hd : ∀ a, (u.setP { u.p with i := true, d := false }).isDevice a = s.isDevice a := by
    intro a
    rw [h1]
    rfl
  have hram : ∀ (a : Word) (v : Byte), 0xFF00 ≤ a.toNat →
      ReadsRam (u.setP { u.p with i := true, d := false }) a v → ReadsRam s a v := by
    intro a v ha h hr
    refine (h ((hd a).trans hr)).trans (h2 _ ?_ ?_ ?_)
    · have := hstack s.sp
      omega
    · have := hstack (s.sp - 1)
      omega
    · have := hstack (s.sp - 2)
      omega
  refine ⟨⟨lo, hi, ?_, hram _ _ hvec.1 m3, hram _ _ hvec.2 m4⟩, ?_, ?_, ?_, ?_⟩
  · simp only [State.setPc, m2]
    rw [m1.2]
    simp only [State.setP]
    rw [h1]
    simp only [BitVec.add_assoc, List.append_assoc]
    rfl
  all_goals simpa only [hmem]

/-- The vector read of `new` and `reset()` (R450): two recorded reads, counted only under RESET_READS_COUNTED. -/
theorem vectorRead_spec (a : Word) (s : State) : ∃ lo hi : Byte,
    (vectorRead a s).1 = joinBytes hi lo
      ∧ (vectorRead a s).2 = { s with
          cycles      := if s.params.resetReadsCounted then s.cycles + 2 else s.cycles
          deviceReads := (vectorRead a s).2.deviceReads
          accesses    := s.accesses ++ [.read a lo, .read (a + 1) hi] }
      ∧ ReadsRam s a lo ∧ ReadsRam s (a + 1) hi := by
  unfold vectorRead
  split
  · obtain ⟨lo, hi, h1, h2, h3, h4⟩ := readPair_afterReads a (a + 1) s
    exact ⟨lo, hi, h2, h1.2, h3, h4⟩
  · refine ⟨_, _, rfl, by simp [busRead], memRead_readsRam a s, fun h => ?_⟩
    exact busValue_ram (s := (busRead a s).2) h

end Sys2Proof.Machine
end

