-- ==== Sys2Proof/Laws/Flags.lean ====
section
/-!
SUPPORT. The flag helpers: `setNZ` in the spec's terms, P as a byte and back.
-/

namespace Sys2Proof.Machine

/-- `setNZ` (R12) is the spec's own formula. -/
theorem Flags.setNZ_eq_flagsNZ (f : Flags) (v : Byte) : f.setNZ v = flagsNZ f v := by
  have h : (v == 0x00#8) = decide (v.toNat = 0) := by
    rw [Bool.eq_iff_iff, beq_iff_eq, decide_eq_true_iff, ← BitVec.toNat_inj]
    rfl
  simp only [Flags.setNZ, flagsNZ, h, BitVec.msb_eq_getLsbD_last]

/-- `setNZ` on a state, whose flags alone it writes. -/
theorem State.setNZ_eq (s : State) (v : Byte) : s.setNZ v = { s with p := flagsNZ s.p v } := by
  simp only [State.setNZ, State.setP, Flags.setNZ_eq_flagsNZ]

end Sys2Proof.Machine
end

