-- ==== Sys2Proof/Laws/Frames.lean ====
section
/-!
SUPPORT. What the addressing modes and the access classes leave alone, field by field.
-/

namespace Sys2Proof.Machine

section resolve

variable (m : Addr) (s : State)

@[simp] theorem resolve_a : (resolve m s).2.a = s.a := (resolve_afterReads m s).a_eq
@[simp] theorem resolve_x : (resolve m s).2.x = s.x := (resolve_afterReads m s).x_eq
@[simp] theorem resolve_y : (resolve m s).2.y = s.y := (resolve_afterReads m s).y_eq
@[simp] theorem resolve_sp : (resolve m s).2.sp = s.sp := (resolve_afterReads m s).sp_eq
@[simp] theorem resolve_pc : (resolve m s).2.pc = s.pc := (resolve_afterReads m s).pc_eq
@[simp] theorem resolve_p : (resolve m s).2.p = s.p := (resolve_afterReads m s).p_eq
@[simp] theorem resolve_latch : (resolve m s).2.latch = s.latch := (resolve_afterReads m s).latch_eq
@[simp] theorem resolve_halted : (resolve m s).2.halted = s.halted := (resolve_afterReads m s).halted_eq
@[simp] theorem resolve_params : (resolve m s).2.params = s.params := (resolve_afterReads m s).params_eq
@[simp] theorem resolve_mem : (resolve m s).2.mem = s.mem := (resolve_afterReads m s).mem_eq
@[simp] theorem resolve_windows : (resolve m s).2.windows = s.windows := (resolve_afterReads m s).windows_eq
@[simp] theorem resolve_clockAnswers : (resolve m s).2.clockAnswers = s.clockAnswers := (resolve_afterReads m s).clockAnswers_eq
@[simp] theorem resolve_returned : (resolve m s).2.returned = s.returned := (resolve_afterReads m s).returned_eq
@[simp] theorem resolve_isDevice (b : Word) : (resolve m s).2.isDevice b = s.isDevice b := (resolve_afterReads m s).isDevice_eq b

end resolve

section load

variable (src : Src) (s : State)

@[simp] theorem load_a : (load src s).2.a = s.a := (load_afterReads src s).a_eq
@[simp] theorem load_x : (load src s).2.x = s.x := (load_afterReads src s).x_eq
@[simp] theorem load_y : (load src s).2.y = s.y := (load_afterReads src s).y_eq
@[simp] theorem load_sp : (load src s).2.sp = s.sp := (load_afterReads src s).sp_eq
@[simp] theorem load_pc : (load src s).2.pc = s.pc := (load_afterReads src s).pc_eq
@[simp] theorem load_p : (load src s).2.p = s.p := (load_afterReads src s).p_eq
@[simp] theorem load_latch : (load src s).2.latch = s.latch := (load_afterReads src s).latch_eq
@[simp] theorem load_halted : (load src s).2.halted = s.halted := (load_afterReads src s).halted_eq
@[simp] theorem load_params : (load src s).2.params = s.params := (load_afterReads src s).params_eq
@[simp] theorem load_mem : (load src s).2.mem = s.mem := (load_afterReads src s).mem_eq
@[simp] theorem load_windows : (load src s).2.windows = s.windows := (load_afterReads src s).windows_eq
@[simp] theorem load_clockAnswers : (load src s).2.clockAnswers = s.clockAnswers := (load_afterReads src s).clockAnswers_eq
@[simp] theorem load_returned : (load src s).2.returned = s.returned := (load_afterReads src s).returned_eq
@[simp] theorem load_isDevice (b : Word) : (load src s).2.isDevice b = s.isDevice b := (load_afterReads src s).isDevice_eq b

end load

section jumpTarget

variable (g : Target) (s : State)

@[simp] theorem jumpTarget_a : (jumpTarget g s).2.a = s.a := (jumpTarget_afterReads g s).a_eq
@[simp] theorem jumpTarget_x : (jumpTarget g s).2.x = s.x := (jumpTarget_afterReads g s).x_eq
@[simp] theorem jumpTarget_y : (jumpTarget g s).2.y = s.y := (jumpTarget_afterReads g s).y_eq
@[simp] theorem jumpTarget_sp : (jumpTarget g s).2.sp = s.sp := (jumpTarget_afterReads g s).sp_eq
@[simp] theorem jumpTarget_pc : (jumpTarget g s).2.pc = s.pc := (jumpTarget_afterReads g s).pc_eq
@[simp] theorem jumpTarget_p : (jumpTarget g s).2.p = s.p := (jumpTarget_afterReads g s).p_eq
@[simp] theorem jumpTarget_latch : (jumpTarget g s).2.latch = s.latch := (jumpTarget_afterReads g s).latch_eq
@[simp] theorem jumpTarget_halted : (jumpTarget g s).2.halted = s.halted := (jumpTarget_afterReads g s).halted_eq
@[simp] theorem jumpTarget_params : (jumpTarget g s).2.params = s.params := (jumpTarget_afterReads g s).params_eq
@[simp] theorem jumpTarget_mem : (jumpTarget g s).2.mem = s.mem := (jumpTarget_afterReads g s).mem_eq
@[simp] theorem jumpTarget_windows : (jumpTarget g s).2.windows = s.windows := (jumpTarget_afterReads g s).windows_eq
@[simp] theorem jumpTarget_clockAnswers : (jumpTarget g s).2.clockAnswers = s.clockAnswers := (jumpTarget_afterReads g s).clockAnswers_eq
@[simp] theorem jumpTarget_returned : (jumpTarget g s).2.returned = s.returned := (jumpTarget_afterReads g s).returned_eq
@[simp] theorem jumpTarget_isDevice (b : Word) : (jumpTarget g s).2.isDevice b = s.isDevice b := (jumpTarget_afterReads g s).isDevice_eq b

end jumpTarget

section store

variable (m : Addr) (v : Byte) (s : State)

@[simp] theorem store_a : (store m v s).a = s.a := by simp [store]
@[simp] theorem store_x : (store m v s).x = s.x := by simp [store]
@[simp] theorem store_y : (store m v s).y = s.y := by simp [store]
@[simp] theorem store_sp : (store m v s).sp = s.sp := by simp [store]
@[simp] theorem store_pc : (store m v s).pc = s.pc := by simp [store]
@[simp] theorem store_p : (store m v s).p = s.p := by simp [store]
@[simp] theorem store_latch : (store m v s).latch = s.latch := by simp [store]
@[simp] theorem store_halted : (store m v s).halted = s.halted := by simp [store]
@[simp] theorem store_params : (store m v s).params = s.params := by simp [store]
@[simp] theorem store_windows : (store m v s).windows = s.windows := by simp [store]
@[simp] theorem store_clockAnswers : (store m v s).clockAnswers = s.clockAnswers := by simp [store]
@[simp] theorem store_returned : (store m v s).returned = s.returned := by simp [store]
@[simp] theorem store_isDevice (b : Word) : (store m v s).isDevice b = s.isDevice b := by simp [store]

end store

section rmw

variable (m : Addr) (f : Byte → Flags → Byte × Flags) (s : State)

@[simp] theorem rmw_a : (rmw m f s).a = s.a := by simp [rmw]
@[simp] theorem rmw_x : (rmw m f s).x = s.x := by simp [rmw]
@[simp] theorem rmw_y : (rmw m f s).y = s.y := by simp [rmw]
@[simp] theorem rmw_sp : (rmw m f s).sp = s.sp := by simp [rmw]
@[simp] theorem rmw_pc : (rmw m f s).pc = s.pc := by simp [rmw]
@[simp] theorem rmw_latch : (rmw m f s).latch = s.latch := by simp [rmw]
@[simp] theorem rmw_halted : (rmw m f s).halted = s.halted := by simp [rmw]
@[simp] theorem rmw_params : (rmw m f s).params = s.params := by simp [rmw]
@[simp] theorem rmw_windows : (rmw m f s).windows = s.windows := by simp [rmw]
@[simp] theorem rmw_clockAnswers : (rmw m f s).clockAnswers = s.clockAnswers := by simp [rmw]
@[simp] theorem rmw_returned : (rmw m f s).returned = s.returned := by simp [rmw]
@[simp] theorem rmw_isDevice (b : Word) : (rmw m f s).isDevice b = s.isDevice b := by simp [rmw]

end rmw

section branchIf

variable (cond : Bool) (d : Byte) (s : State)

@[simp] theorem branchIf_a : (branchIf cond d s).a = s.a := by cases cond <;> rfl
@[simp] theorem branchIf_x : (branchIf cond d s).x = s.x := by cases cond <;> rfl
@[simp] theorem branchIf_y : (branchIf cond d s).y = s.y := by cases cond <;> rfl
@[simp] theorem branchIf_sp : (branchIf cond d s).sp = s.sp := by cases cond <;> rfl
@[simp] theorem branchIf_p : (branchIf cond d s).p = s.p := by cases cond <;> rfl
@[simp] theorem branchIf_cycles : (branchIf cond d s).cycles = s.cycles := by cases cond <;> rfl
@[simp] theorem branchIf_latch : (branchIf cond d s).latch = s.latch := by cases cond <;> rfl
@[simp] theorem branchIf_halted : (branchIf cond d s).halted = s.halted := by cases cond <;> rfl
@[simp] theorem branchIf_params : (branchIf cond d s).params = s.params := by cases cond <;> rfl
@[simp] theorem branchIf_mem : (branchIf cond d s).mem = s.mem := by cases cond <;> rfl
@[simp] theorem branchIf_windows : (branchIf cond d s).windows = s.windows := by cases cond <;> rfl
@[simp] theorem branchIf_deviceReads : (branchIf cond d s).deviceReads = s.deviceReads := by cases cond <;> rfl
@[simp] theorem branchIf_clockAnswers : (branchIf cond d s).clockAnswers = s.clockAnswers := by cases cond <;> rfl
@[simp] theorem branchIf_accesses : (branchIf cond d s).accesses = s.accesses := by cases cond <;> rfl
@[simp] theorem branchIf_returned : (branchIf cond d s).returned = s.returned := by cases cond <;> rfl
@[simp] theorem branchIf_isDevice (b : Word) : (branchIf cond d s).isDevice b = s.isDevice b := by cases cond <;> rfl

end branchIf

section branchOnBit

variable (n : Nat) (want : Bool) (zz d : Byte) (s : State)

@[simp] theorem branchOnBit_a : (branchOnBit n want zz d s).a = s.a := by simp [branchOnBit]
@[simp] theorem branchOnBit_x : (branchOnBit n want zz d s).x = s.x := by simp [branchOnBit]
@[simp] theorem branchOnBit_y : (branchOnBit n want zz d s).y = s.y := by simp [branchOnBit]
@[simp] theorem branchOnBit_sp : (branchOnBit n want zz d s).sp = s.sp := by simp [branchOnBit]
@[simp] theorem branchOnBit_p : (branchOnBit n want zz d s).p = s.p := by simp [branchOnBit]
@[simp] theorem branchOnBit_latch : (branchOnBit n want zz d s).latch = s.latch := by simp [branchOnBit]
@[simp] theorem branchOnBit_halted : (branchOnBit n want zz d s).halted = s.halted := by simp [branchOnBit]
@[simp] theorem branchOnBit_params : (branchOnBit n want zz d s).params = s.params := by simp [branchOnBit]
@[simp] theorem branchOnBit_mem : (branchOnBit n want zz d s).mem = s.mem := by simp [branchOnBit]
@[simp] theorem branchOnBit_windows : (branchOnBit n want zz d s).windows = s.windows := by simp [branchOnBit]
@[simp] theorem branchOnBit_clockAnswers : (branchOnBit n want zz d s).clockAnswers = s.clockAnswers := by simp [branchOnBit]
@[simp] theorem branchOnBit_returned : (branchOnBit n want zz d s).returned = s.returned := by simp [branchOnBit]
@[simp] theorem branchOnBit_isDevice (b : Word) : (branchOnBit n want zz d s).isDevice b = s.isDevice b := by simp [branchOnBit]

end branchOnBit

end Sys2Proof.Machine
end

