-- ==== Sys2Proof/Laws/PerInstr.lean ====
section
/-!
SUPPORT. One law per instruction, as syntax: a well-formed instruction encodes to exactly as many bytes as its fetch
consumes, at most three (spec R82).
-/

namespace Sys2Proof.Laws.EncodedLength

def Statement (i : Instr) : Prop :=
  i.wellFormed = true → ∃ bytes, encode i = some bytes ∧ bytes.length = i.length ∧ bytes.length ≤ 3

/-- An instruction that has an opcode encodes to it and the operand bytes. -/
theorem of_opcode {i : Instr} {op : Byte} (h : i.opcode = some op) (hl : i.length ≤ 3) : Statement i := fun _ =>
  ⟨op :: i.operandBytes, by rw [encode, h]; rfl, Nat.add_comm _ _, (Nat.add_comm _ _).trans_le hl⟩

/-- An ill-formed instruction has nothing to show. -/
theorem of_illFormed {i : Instr} (h : i.wellFormed = false) : Statement i := fun hw => absurd (h.symm.trans hw) (by decide)

theorem length_bare : 1 + ([] : List Byte).length ≤ 3 := by decide

theorem length_byte (b : Byte) : 1 + [b].length ≤ 3 := by simp

theorem length_two (b d : Byte) : 1 + [b, d].length ≤ 3 := by simp

theorem lda (src : Src) : Statement (.lda src) := by
  cases src with
  | imm _ => exact of_opcode rfl (length_byte _)
  | mem m => cases m <;> first | exact of_illFormed rfl | exact of_opcode rfl (length_byte _) | exact of_opcode rfl (length_two _ _)

theorem ldx (src : Src) : Statement (.ldx src) := by
  cases src with
  | imm _ => exact of_opcode rfl (length_byte _)
  | mem m => cases m <;> first | exact of_illFormed rfl | exact of_opcode rfl (length_byte _) | exact of_opcode rfl (length_two _ _)

theorem ldy (src : Src) : Statement (.ldy src) := by
  cases src with
  | imm _ => exact of_opcode rfl (length_byte _)
  | mem m => cases m <;> first | exact of_illFormed rfl | exact of_opcode rfl (length_byte _) | exact of_opcode rfl (length_two _ _)

theorem sta (dst : Addr) : Statement (.sta dst) := by
  cases dst <;> first | exact of_illFormed rfl | exact of_opcode rfl (length_byte _) | exact of_opcode rfl (length_two _ _)

theorem stx (dst : Addr) : Statement (.stx dst) := by
  cases dst <;> first | exact of_illFormed rfl | exact of_opcode rfl (length_byte _) | exact of_opcode rfl (length_two _ _)

theorem sty (dst : Addr) : Statement (.sty dst) := by
  cases dst <;> first | exact of_illFormed rfl | exact of_opcode rfl (length_byte _) | exact of_opcode rfl (length_two _ _)

theorem tax : Statement .tax := of_opcode rfl length_bare

theorem tay : Statement .tay := of_opcode rfl length_bare

theorem tsx : Statement .tsx := of_opcode rfl length_bare

theorem txa : Statement .txa := of_opcode rfl length_bare

theorem txs : Statement .txs := of_opcode rfl length_bare

theorem tya : Statement .tya := of_opcode rfl length_bare

theorem pha : Statement .pha := of_opcode rfl length_bare

theorem php : Statement .php := of_opcode rfl length_bare

theorem pla : Statement .pla := of_opcode rfl length_bare

theorem plp : Statement .plp := of_opcode rfl length_bare

theorem adc (src : Src) : Statement (.adc src) := by
  cases src with
  | imm _ => exact of_opcode rfl (length_byte _)
  | mem m => cases m <;> first | exact of_illFormed rfl | exact of_opcode rfl (length_byte _) | exact of_opcode rfl (length_two _ _)

theorem sbc (src : Src) : Statement (.sbc src) := by
  cases src with
  | imm _ => exact of_opcode rfl (length_byte _)
  | mem m => cases m <;> first | exact of_illFormed rfl | exact of_opcode rfl (length_byte _) | exact of_opcode rfl (length_two _ _)

theorem and (src : Src) : Statement (.and src) := by
  cases src with
  | imm _ => exact of_opcode rfl (length_byte _)
  | mem m => cases m <;> first | exact of_illFormed rfl | exact of_opcode rfl (length_byte _) | exact of_opcode rfl (length_two _ _)

theorem ora (src : Src) : Statement (.ora src) := by
  cases src with
  | imm _ => exact of_opcode rfl (length_byte _)
  | mem m => cases m <;> first | exact of_illFormed rfl | exact of_opcode rfl (length_byte _) | exact of_opcode rfl (length_two _ _)

theorem eor (src : Src) : Statement (.eor src) := by
  cases src with
  | imm _ => exact of_opcode rfl (length_byte _)
  | mem m => cases m <;> first | exact of_illFormed rfl | exact of_opcode rfl (length_byte _) | exact of_opcode rfl (length_two _ _)

theorem bit (src : Src) : Statement (.bit src) := by
  cases src with
  | imm _ => exact of_opcode rfl (length_byte _)
  | mem m => cases m <;> first | exact of_illFormed rfl | exact of_opcode rfl (length_byte _) | exact of_opcode rfl (length_two _ _)

theorem cmp (src : Src) : Statement (.cmp src) := by
  cases src with
  | imm _ => exact of_opcode rfl (length_byte _)
  | mem m => cases m <;> first | exact of_illFormed rfl | exact of_opcode rfl (length_byte _) | exact of_opcode rfl (length_two _ _)

theorem cpx (src : Src) : Statement (.cpx src) := by
  cases src with
  | imm _ => exact of_opcode rfl (length_byte _)
  | mem m => cases m <;> first | exact of_illFormed rfl | exact of_opcode rfl (length_byte _) | exact of_opcode rfl (length_two _ _)

theorem cpy (src : Src) : Statement (.cpy src) := by
  cases src with
  | imm _ => exact of_opcode rfl (length_byte _)
  | mem m => cases m <;> first | exact of_illFormed rfl | exact of_opcode rfl (length_byte _) | exact of_opcode rfl (length_two _ _)

theorem asl (loc : Loc) : Statement (.asl loc) := by
  cases loc with
  | acc => exact of_opcode rfl length_bare
  | mem m => cases m <;> first | exact of_illFormed rfl | exact of_opcode rfl (length_byte _) | exact of_opcode rfl (length_two _ _)

theorem lsr (loc : Loc) : Statement (.lsr loc) := by
  cases loc with
  | acc => exact of_opcode rfl length_bare
  | mem m => cases m <;> first | exact of_illFormed rfl | exact of_opcode rfl (length_byte _) | exact of_opcode rfl (length_two _ _)

theorem rol (loc : Loc) : Statement (.rol loc) := by
  cases loc with
  | acc => exact of_opcode rfl length_bare
  | mem m => cases m <;> first | exact of_illFormed rfl | exact of_opcode rfl (length_byte _) | exact of_opcode rfl (length_two _ _)

theorem ror (loc : Loc) : Statement (.ror loc) := by
  cases loc with
  | acc => exact of_opcode rfl length_bare
  | mem m => cases m <;> first | exact of_illFormed rfl | exact of_opcode rfl (length_byte _) | exact of_opcode rfl (length_two _ _)

theorem inc (loc : Loc) : Statement (.inc loc) := by
  cases loc with
  | acc => exact of_opcode rfl length_bare
  | mem m => cases m <;> first | exact of_illFormed rfl | exact of_opcode rfl (length_byte _) | exact of_opcode rfl (length_two _ _)

theorem dec (loc : Loc) : Statement (.dec loc) := by
  cases loc with
  | acc => exact of_opcode rfl length_bare
  | mem m => cases m <;> first | exact of_illFormed rfl | exact of_opcode rfl (length_byte _) | exact of_opcode rfl (length_two _ _)

theorem inx : Statement .inx := of_opcode rfl length_bare

theorem dex : Statement .dex := of_opcode rfl length_bare

theorem iny : Statement .iny := of_opcode rfl length_bare

theorem dey : Statement .dey := of_opcode rfl length_bare

theorem bpl (d : Byte) : Statement (.bpl d) := of_opcode rfl (length_byte _)

theorem bmi (d : Byte) : Statement (.bmi d) := of_opcode rfl (length_byte _)

theorem bvc (d : Byte) : Statement (.bvc d) := of_opcode rfl (length_byte _)

theorem bvs (d : Byte) : Statement (.bvs d) := of_opcode rfl (length_byte _)

theorem bcc (d : Byte) : Statement (.bcc d) := of_opcode rfl (length_byte _)

theorem bcs (d : Byte) : Statement (.bcs d) := of_opcode rfl (length_byte _)

theorem bne (d : Byte) : Statement (.bne d) := of_opcode rfl (length_byte _)

theorem beq (d : Byte) : Statement (.beq d) := of_opcode rfl (length_byte _)

theorem jmp (target : Target) : Statement (.jmp target) := by
  cases target <;> exact of_opcode rfl (length_two _ _)

theorem jsr (target : Word) : Statement (.jsr target) := of_opcode rfl (length_two _ _)

theorem rts : Statement .rts := of_opcode rfl length_bare

theorem rti : Statement .rti := of_opcode rfl length_bare

theorem brk : Statement .brk := of_opcode rfl length_bare

theorem clc : Statement .clc := of_opcode rfl length_bare

theorem sec : Statement .sec := of_opcode rfl length_bare

theorem cli : Statement .cli := of_opcode rfl length_bare

theorem sei : Statement .sei := of_opcode rfl length_bare

theorem clv : Statement .clv := of_opcode rfl length_bare

theorem cld : Statement .cld := of_opcode rfl length_bare

theorem sed : Statement .sed := of_opcode rfl length_bare

theorem nop : Statement .nop := of_opcode rfl length_bare

theorem nopUndefined (op : Byte) : Statement (.nopUndefined op) := fun h => of_opcode (if_pos h) length_bare h

theorem wai : Statement .wai := of_opcode rfl length_bare

theorem stp : Statement .stp := of_opcode rfl length_bare

theorem bra (d : Byte) : Statement (.bra d) := of_opcode rfl (length_byte _)

theorem phx : Statement .phx := of_opcode rfl length_bare

theorem phy : Statement .phy := of_opcode rfl length_bare

theorem plx : Statement .plx := of_opcode rfl length_bare

theorem ply : Statement .ply := of_opcode rfl length_bare

theorem stz (dst : Addr) : Statement (.stz dst) := by
  cases dst <;> first | exact of_illFormed rfl | exact of_opcode rfl (length_byte _) | exact of_opcode rfl (length_two _ _)

theorem tsb (loc : Addr) : Statement (.tsb loc) := by
  cases loc <;> first | exact of_illFormed rfl | exact of_opcode rfl (length_byte _) | exact of_opcode rfl (length_two _ _)

theorem trb (loc : Addr) : Statement (.trb loc) := by
  cases loc <;> first | exact of_illFormed rfl | exact of_opcode rfl (length_byte _) | exact of_opcode rfl (length_two _ _)

theorem rmb0 (zz : Byte) : Statement (.rmb0 zz) := of_opcode rfl (length_byte _)

theorem rmb1 (zz : Byte) : Statement (.rmb1 zz) := of_opcode rfl (length_byte _)

theorem rmb2 (zz : Byte) : Statement (.rmb2 zz) := of_opcode rfl (length_byte _)

theorem rmb3 (zz : Byte) : Statement (.rmb3 zz) := of_opcode rfl (length_byte _)

theorem rmb4 (zz : Byte) : Statement (.rmb4 zz) := of_opcode rfl (length_byte _)

theorem rmb5 (zz : Byte) : Statement (.rmb5 zz) := of_opcode rfl (length_byte _)

theorem rmb6 (zz : Byte) : Statement (.rmb6 zz) := of_opcode rfl (length_byte _)

theorem rmb7 (zz : Byte) : Statement (.rmb7 zz) := of_opcode rfl (length_byte _)

theorem smb0 (zz : Byte) : Statement (.smb0 zz) := of_opcode rfl (length_byte _)

theorem smb1 (zz : Byte) : Statement (.smb1 zz) := of_opcode rfl (length_byte _)

theorem smb2 (zz : Byte) : Statement (.smb2 zz) := of_opcode rfl (length_byte _)

theorem smb3 (zz : Byte) : Statement (.smb3 zz) := of_opcode rfl (length_byte _)

theorem smb4 (zz : Byte) : Statement (.smb4 zz) := of_opcode rfl (length_byte _)

theorem smb5 (zz : Byte) : Statement (.smb5 zz) := of_opcode rfl (length_byte _)

theorem smb6 (zz : Byte) : Statement (.smb6 zz) := of_opcode rfl (length_byte _)

theorem smb7 (zz : Byte) : Statement (.smb7 zz) := of_opcode rfl (length_byte _)

theorem bbr0 (zz d : Byte) : Statement (.bbr0 zz d) := of_opcode rfl (length_two _ _)

theorem bbr1 (zz d : Byte) : Statement (.bbr1 zz d) := of_opcode rfl (length_two _ _)

theorem bbr2 (zz d : Byte) : Statement (.bbr2 zz d) := of_opcode rfl (length_two _ _)

theorem bbr3 (zz d : Byte) : Statement (.bbr3 zz d) := of_opcode rfl (length_two _ _)

theorem bbr4 (zz d : Byte) : Statement (.bbr4 zz d) := of_opcode rfl (length_two _ _)

theorem bbr5 (zz d : Byte) : Statement (.bbr5 zz d) := of_opcode rfl (length_two _ _)

theorem bbr6 (zz d : Byte) : Statement (.bbr6 zz d) := of_opcode rfl (length_two _ _)

theorem bbr7 (zz d : Byte) : Statement (.bbr7 zz d) := of_opcode rfl (length_two _ _)

theorem bbs0 (zz d : Byte) : Statement (.bbs0 zz d) := of_opcode rfl (length_two _ _)

theorem bbs1 (zz d : Byte) : Statement (.bbs1 zz d) := of_opcode rfl (length_two _ _)

theorem bbs2 (zz d : Byte) : Statement (.bbs2 zz d) := of_opcode rfl (length_two _ _)

theorem bbs3 (zz d : Byte) : Statement (.bbs3 zz d) := of_opcode rfl (length_two _ _)

theorem bbs4 (zz d : Byte) : Statement (.bbs4 zz d) := of_opcode rfl (length_two _ _)

theorem bbs5 (zz d : Byte) : Statement (.bbs5 zz d) := of_opcode rfl (length_two _ _)

theorem bbs6 (zz d : Byte) : Statement (.bbs6 zz d) := of_opcode rfl (length_two _ _)

theorem bbs7 (zz d : Byte) : Statement (.bbs7 zz d) := of_opcode rfl (length_two _ _)

end Sys2Proof.Laws.EncodedLength
end

