-- ==== Sys2Proof/Tests/Slice0.lean ====
section
/-!
SUPPORT. Tests: ill-formed terms that WellFormed refuses, the decoding of every constructor by words written out from
the opcode map of spec R86, one-step vectors of spec/95, and a witness for the hypotheses of every statement.
-/

namespace Sys2Proof.Tests

open Sys2Proof Sys2Proof.Machine

/-! ## WellFormed refuses an ill-formed term of each check (R87-R90) -/

theorem test_wellFormed_refuses_accumulator_op_zpY :
    [Instr.lda (.mem (.zpY 0#8)), .adc (.mem (.zpY 0#8)), .sbc (.mem (.zpY 0#8)), .and (.mem (.zpY 0#8)),
      .ora (.mem (.zpY 0#8)), .eor (.mem (.zpY 0#8)), .cmp (.mem (.zpY 0#8)), .sta (.zpY 0#8)].all (!·.wellFormed) = true := by
  decide

theorem test_wellFormed_refuses_index_modes :
    [Instr.ldx (.mem (.zpX 0#8)), .ldx (.mem (.absX 0#16)), .ldy (.mem (.zpY 0#8)), .ldy (.mem (.absY 0#16)),
      .stx (.zpX 0#8), .stx (.absY 0#16), .sty (.zpY 0#8), .sty (.absX 0#16), .stz (.zpY 0#8)].all (!·.wellFormed) = true := by
  decide

theorem test_wellFormed_refuses_rmw_and_test_modes :
    [Instr.asl (.mem (.absY 0#16)), .lsr (.mem (.zpY 0#8)), .rol (.mem (.indX 0#8)), .ror (.mem (.indY 0#8)),
      .inc (.mem (.ind 0#8)), .dec (.mem (.zpY 0#8)), .bit (.mem (.absY 0#16)), .cpx (.mem (.zpX 0#8)),
      .cpy (.mem (.absX 0#16)), .tsb (.zpX 0#8), .trb (.absX 0#16)].all (!·.wellFormed) = true := by
  decide

/-- NOP, WAI, STP and an extension opcode are not among the 44 undefined bytes (R90). -/
theorem test_wellFormed_refuses_defined_bytes_as_undefined :
    [Instr.nopUndefined 0xEA#8, .nopUndefined 0xCB#8, .nopUndefined 0xDB#8, .nopUndefined 0x80#8].all (!·.wellFormed) = true := by
  decide

theorem test_illFormed_has_no_encoding : encode (.stx (.zpX 0#8)) = none ∧ encode (.nopUndefined 0xEA#8) = none := by
  decide

/-! ## Decoding, by words written out from the opcode map (R86) and the operand order of R81-R84 -/

theorem test_decode_loads_and_stores :
    decode [0xBD#8, 0x34#8, 0x12#8] = .ok (.lda (.mem (.absX 0x1234#16)), [])
      ∧ decode [0xB6#8, 0x10#8] = .ok (.ldx (.mem (.zpY 0x10#8)), [])
      ∧ decode [0xBC#8, 0x34#8, 0x12#8] = .ok (.ldy (.mem (.absX 0x1234#16)), [])
      ∧ decode [0x91#8, 0x10#8] = .ok (.sta (.indY 0x10#8), [])
      ∧ decode [0x8E#8, 0x34#8, 0x12#8] = .ok (.stx (.abs 0x1234#16), [])
      ∧ decode [0x94#8, 0x10#8] = .ok (.sty (.zpX 0x10#8), []) := by
  decide

theorem test_decode_transfers :
    decode [0xAA#8] = .ok (.tax, [])
      ∧ decode [0xA8#8] = .ok (.tay, [])
      ∧ decode [0xBA#8] = .ok (.tsx, [])
      ∧ decode [0x8A#8] = .ok (.txa, [])
      ∧ decode [0x9A#8] = .ok (.txs, [])
      ∧ decode [0x98#8] = .ok (.tya, []) := by
  decide

theorem test_decode_stack :
    decode [0x48#8] = .ok (.pha, [])
      ∧ decode [0x08#8] = .ok (.php, [])
      ∧ decode [0x68#8] = .ok (.pla, [])
      ∧ decode [0x28#8] = .ok (.plp, [])
      ∧ decode [0xDA#8] = .ok (.phx, [])
      ∧ decode [0x5A#8] = .ok (.phy, [])
      ∧ decode [0xFA#8] = .ok (.plx, [])
      ∧ decode [0x7A#8] = .ok (.ply, []) := by
  decide

theorem test_decode_alu :
    decode [0x79#8, 0x34#8, 0x12#8] = .ok (.adc (.mem (.absY 0x1234#16)), [])
      ∧ decode [0xF2#8, 0x10#8] = .ok (.sbc (.mem (.ind 0x10#8)), [])
      ∧ decode [0x21#8, 0x10#8] = .ok (.and (.mem (.indX 0x10#8)), [])
      ∧ decode [0x09#8, 0x7F#8] = .ok (.ora (.imm 0x7F#8), [])
      ∧ decode [0x55#8, 0x10#8] = .ok (.eor (.mem (.zpX 0x10#8)), [])
      ∧ decode [0x2C#8, 0x34#8, 0x12#8] = .ok (.bit (.mem (.abs 0x1234#16)), [])
      ∧ decode [0xD1#8, 0x10#8] = .ok (.cmp (.mem (.indY 0x10#8)), [])
      ∧ decode [0xEC#8, 0x34#8, 0x12#8] = .ok (.cpx (.mem (.abs 0x1234#16)), [])
      ∧ decode [0xC4#8, 0x10#8] = .ok (.cpy (.mem (.zp 0x10#8)), []) := by
  decide

theorem test_decode_shifts_and_increments :
    decode [0x0A#8] = .ok (.asl .acc, [])
      ∧ decode [0x5E#8, 0x34#8, 0x12#8] = .ok (.lsr (.mem (.absX 0x1234#16)), [])
      ∧ decode [0x26#8, 0x10#8] = .ok (.rol (.mem (.zp 0x10#8)), [])
      ∧ decode [0x76#8, 0x10#8] = .ok (.ror (.mem (.zpX 0x10#8)), [])
      ∧ decode [0xEE#8, 0x34#8, 0x12#8] = .ok (.inc (.mem (.abs 0x1234#16)), [])
      ∧ decode [0x3A#8] = .ok (.dec .acc, [])
      ∧ decode [0xE8#8] = .ok (.inx, [])
      ∧ decode [0xCA#8] = .ok (.dex, [])
      ∧ decode [0xC8#8] = .ok (.iny, [])
      ∧ decode [0x88#8] = .ok (.dey, []) := by
  decide

theorem test_decode_branches :
    decode [0x10#8, 0xFE#8] = .ok (.bpl 0xFE#8, [])
      ∧ decode [0x30#8, 0xFE#8] = .ok (.bmi 0xFE#8, [])
      ∧ decode [0x50#8, 0xFE#8] = .ok (.bvc 0xFE#8, [])
      ∧ decode [0x70#8, 0xFE#8] = .ok (.bvs 0xFE#8, [])
      ∧ decode [0x90#8, 0xFE#8] = .ok (.bcc 0xFE#8, [])
      ∧ decode [0xB0#8, 0xFE#8] = .ok (.bcs 0xFE#8, [])
      ∧ decode [0xD0#8, 0xFE#8] = .ok (.bne 0xFE#8, [])
      ∧ decode [0xF0#8, 0xFE#8] = .ok (.beq 0xFE#8, [])
      ∧ decode [0x80#8, 0xFE#8] = .ok (.bra 0xFE#8, []) := by
  decide

theorem test_decode_jumps_and_returns :
    decode [0x7C#8, 0x34#8, 0x12#8] = .ok (.jmp (.indX 0x1234#16), [])
      ∧ decode [0x20#8, 0x34#8, 0x12#8] = .ok (.jsr 0x1234#16, [])
      ∧ decode [0x60#8] = .ok (.rts, [])
      ∧ decode [0x40#8] = .ok (.rti, [])
      ∧ decode [0x00#8] = .ok (.brk, []) := by
  decide

theorem test_decode_flag_instructions :
    decode [0x18#8] = .ok (.clc, [])
      ∧ decode [0x38#8] = .ok (.sec, [])
      ∧ decode [0x58#8] = .ok (.cli, [])
      ∧ decode [0x78#8] = .ok (.sei, [])
      ∧ decode [0xB8#8] = .ok (.clv, [])
      ∧ decode [0xD8#8] = .ok (.cld, [])
      ∧ decode [0xF8#8] = .ok (.sed, []) := by
  decide

theorem test_decode_nops :
    decode [0xEA#8] = .ok (.nop, [])
      ∧ decode [0x5C#8] = .ok (.nopUndefined 0x5C#8, [])
      ∧ decode [0xCB#8] = .ok (.wai, [])
      ∧ decode [0xDB#8] = .ok (.stp, []) := by
  decide

theorem test_decode_stz_tsb_trb :
    decode [0x9E#8, 0x34#8, 0x12#8] = .ok (.stz (.absX 0x1234#16), [])
      ∧ decode [0x0C#8, 0x34#8, 0x12#8] = .ok (.tsb (.abs 0x1234#16), [])
      ∧ decode [0x14#8, 0x10#8] = .ok (.trb (.zp 0x10#8), []) := by
  decide

theorem test_decode_rmb :
    decode [0x07#8, 0x10#8] = .ok (.rmb0 0x10#8, [])
      ∧ decode [0x17#8, 0x10#8] = .ok (.rmb1 0x10#8, [])
      ∧ decode [0x27#8, 0x10#8] = .ok (.rmb2 0x10#8, [])
      ∧ decode [0x37#8, 0x10#8] = .ok (.rmb3 0x10#8, [])
      ∧ decode [0x47#8, 0x10#8] = .ok (.rmb4 0x10#8, [])
      ∧ decode [0x57#8, 0x10#8] = .ok (.rmb5 0x10#8, [])
      ∧ decode [0x67#8, 0x10#8] = .ok (.rmb6 0x10#8, [])
      ∧ decode [0x77#8, 0x10#8] = .ok (.rmb7 0x10#8, []) := by
  decide

theorem test_decode_smb :
    decode [0x87#8, 0x10#8] = .ok (.smb0 0x10#8, [])
      ∧ decode [0x97#8, 0x10#8] = .ok (.smb1 0x10#8, [])
      ∧ decode [0xA7#8, 0x10#8] = .ok (.smb2 0x10#8, [])
      ∧ decode [0xB7#8, 0x10#8] = .ok (.smb3 0x10#8, [])
      ∧ decode [0xC7#8, 0x10#8] = .ok (.smb4 0x10#8, [])
      ∧ decode [0xD7#8, 0x10#8] = .ok (.smb5 0x10#8, [])
      ∧ decode [0xE7#8, 0x10#8] = .ok (.smb6 0x10#8, [])
      ∧ decode [0xF7#8, 0x10#8] = .ok (.smb7 0x10#8, []) := by
  decide

theorem test_decode_bbr :
    decode [0x0F#8, 0x10#8, 0xFE#8] = .ok (.bbr0 0x10#8 0xFE#8, [])
      ∧ decode [0x1F#8, 0x10#8, 0xFE#8] = .ok (.bbr1 0x10#8 0xFE#8, [])
      ∧ decode [0x2F#8, 0x10#8, 0xFE#8] = .ok (.bbr2 0x10#8 0xFE#8, [])
      ∧ decode [0x3F#8, 0x10#8, 0xFE#8] = .ok (.bbr3 0x10#8 0xFE#8, [])
      ∧ decode [0x4F#8, 0x10#8, 0xFE#8] = .ok (.bbr4 0x10#8 0xFE#8, [])
      ∧ decode [0x5F#8, 0x10#8, 0xFE#8] = .ok (.bbr5 0x10#8 0xFE#8, [])
      ∧ decode [0x6F#8, 0x10#8, 0xFE#8] = .ok (.bbr6 0x10#8 0xFE#8, [])
      ∧ decode [0x7F#8, 0x10#8, 0xFE#8] = .ok (.bbr7 0x10#8 0xFE#8, []) := by
  decide

theorem test_decode_bbs :
    decode [0x8F#8, 0x10#8, 0xFE#8] = .ok (.bbs0 0x10#8 0xFE#8, [])
      ∧ decode [0x9F#8, 0x10#8, 0xFE#8] = .ok (.bbs1 0x10#8 0xFE#8, [])
      ∧ decode [0xAF#8, 0x10#8, 0xFE#8] = .ok (.bbs2 0x10#8 0xFE#8, [])
      ∧ decode [0xBF#8, 0x10#8, 0xFE#8] = .ok (.bbs3 0x10#8 0xFE#8, [])
      ∧ decode [0xCF#8, 0x10#8, 0xFE#8] = .ok (.bbs4 0x10#8 0xFE#8, [])
      ∧ decode [0xDF#8, 0x10#8, 0xFE#8] = .ok (.bbs5 0x10#8 0xFE#8, [])
      ∧ decode [0xEF#8, 0x10#8, 0xFE#8] = .ok (.bbs6 0x10#8 0xFE#8, [])
      ∧ decode [0xFF#8, 0x10#8, 0xFE#8] = .ok (.bbs7 0x10#8 0xFE#8, []) := by
  decide

/-- The decoder rejects a list that ends inside an instruction, by name. -/
theorem test_decode_rejects_short_lists :
    decode [] = .error .noOpcode ∧ decode [0xA9#8] = .error (.operandMissing 0xA9#8)
      ∧ decode [0x20#8, 0x00#8] = .error (.operandMissing 0x20#8) := by
  decide

/-- A table word of three bytes: the first byte is its bits 7..0 (R80, spec/opcode_table.json). -/
theorem test_decodeTableWord : decodeTableWord 24 0x12348D = some (.sta (.abs 0x1234#16))
    ∧ decodeTableWord 8 0xA9 = some (.lda (.imm 0x00#8)) := by
  decide

/-! ## One step, against the vectors of spec/95 -/

/-- The vector table of spec/95 section 0. -/
def vectors : Memory := [(0xFFFB, 0xC0#8), (0xFFFD, 0x80#8), (0xFFFF, 0xA0#8)]

def allExtensions : Params :=
  { defaultParams with
    extBra := true, extXyStack := true, extStz := true, extTsbTrb := true, extIncDecA := true, extBit := true
    extJmpIx := true, extBitOps := true }

def decimalParams : Params := { defaultParams with decimalMode := .bcd65c02 }

/-- A running core on plain RAM that holds `mem`, nothing latched. -/
def machine (params : Params) (pc : Word) (a x y sp p : Byte) (mem : Memory) : State where
  a            := a
  x            := x
  y            := y
  sp           := sp
  pc           := pc
  p            := Flags.ofByte p
  cycles       := 0
  latch        := { nmi := false, irq := false }
  halted       := false
  params       := params
  mem          := mem
  windows      := []
  deviceReads  := 0
  clockAnswers := []
  accesses     := []
  returned     := 0

/-- What a vector of spec/95 shows of an outcome: PC, A X Y SP P, the bytes at some addresses, and the value returned. -/
def seen (addrs : List Nat) : Host.Outcome State Fault Refusal → Option (Word × List Byte × List Byte × BitVec 32)
  | .next t => some (t.pc, [t.a, t.x, t.y, t.sp, t.p.toByte false], addrs.map t.mem.read, t.returned)
  | _       => none

/-- Vector LS4 of spec/95 (R160, R137). -/
theorem test_LS4 : seen [] (step (machine defaultParams 0x8000#16 0x00#8 0x20#8 0x00#8 0xFF#8 0x24#8
      ([(0x0010, 0x33#8), (0x8000, 0xB5#8), (0x8001, 0xF0#8)] ++ vectors))) =
      some (0x8002#16, [0x33#8, 0x20#8, 0x00#8, 0xFF#8, 0x24#8], [], 3) := by decide

/-- Vector LS7 of spec/95 (R160, R143). -/
theorem test_LS7 : seen [] (step (machine defaultParams 0x8000#16 0x00#8 0x00#8 0x00#8 0xFF#8 0x24#8
      ([(0x0000, 0x12#8), (0x00FF, 0x34#8), (0x1234, 0x5A#8), (0x8000, 0xA1#8), (0x8001, 0xFF#8)] ++ vectors))) =
      some (0x8002#16, [0x5A#8, 0x00#8, 0x00#8, 0xFF#8, 0x24#8], [], 5) := by decide

/-- Vector LS10 of spec/95 (R160, R144). -/
theorem test_LS10 : seen [] (step (machine defaultParams 0x8000#16 0x00#8 0x00#8 0x02#8 0xFF#8 0x24#8
      ([(0x0001, 0x66#8), (0x0040, 0xFF#8), (0x0041, 0xFF#8), (0x8000, 0xB1#8), (0x8001, 0x40#8)] ++ vectors))) =
      some (0x8002#16, [0x66#8, 0x00#8, 0x02#8, 0xFF#8, 0x24#8], [], 5) := by decide

/-- Vector LS12 of spec/95 (R161, R138). -/
theorem test_LS12 : seen [] (step (machine defaultParams 0x8000#16 0x00#8 0x00#8 0x02#8 0xFF#8 0x24#8
      ([(0x8000, 0xB6#8), (0x8001, 0xFF#8)] ++ vectors))) =
      some (0x8002#16, [0x00#8, 0x00#8, 0x02#8, 0xFF#8, 0x26#8], [], 3) := by decide

/-- Vector LS16 of spec/95 (R163, R144). -/
theorem test_LS16 : seen [0x2100] (step (machine defaultParams 0x8000#16 0xEE#8 0x00#8 0x01#8 0xFF#8 0x24#8
      ([(0x0010, 0xFF#8), (0x0011, 0x20#8), (0x8000, 0x91#8), (0x8001, 0x10#8)] ++ vectors))) =
      some (0x8002#16, [0xEE#8, 0x00#8, 0x01#8, 0xFF#8, 0x24#8], [0xEE#8], 5) := by decide

/-- Vector LS18 of spec/95 (R164, R138, R88). -/
theorem test_LS18 : seen [0x0010] (step (machine defaultParams 0x8000#16 0x00#8 0xAB#8 0x20#8 0xFF#8 0x24#8
      ([(0x8000, 0x96#8), (0x8001, 0xF0#8)] ++ vectors))) =
      some (0x8002#16, [0x00#8, 0xAB#8, 0x20#8, 0xFF#8, 0x24#8], [0xAB#8], 3) := by decide

/-- Vector TR5 of spec/95 (R170). -/
theorem test_TR5 : seen [] (step (machine defaultParams 0x8000#16 0x00#8 0x00#8 0x00#8 0xFF#8 0x24#8
      ([(0x8000, 0x9A#8)] ++ vectors))) =
      some (0x8001#16, [0x00#8, 0x00#8, 0x00#8, 0x00#8, 0x24#8], [], 1) := by decide

/-- Vector ST1 of spec/95 (R190). -/
theorem test_ST1 : seen [0x0100] (step (machine defaultParams 0x8000#16 0xAB#8 0x00#8 0x00#8 0x00#8 0x24#8
      ([(0x8000, 0x48#8)] ++ vectors))) =
      some (0x8001#16, [0xAB#8, 0x00#8, 0x00#8, 0xFF#8, 0x24#8], [0xAB#8], 2) := by decide

/-- Vector ST2 of spec/95 (R192). -/
theorem test_ST2 : seen [] (step (machine defaultParams 0x8000#16 0x11#8 0x00#8 0x00#8 0xFF#8 0x24#8
      ([(0x8000, 0x68#8)] ++ vectors))) =
      some (0x8001#16, [0x00#8, 0x00#8, 0x00#8, 0x00#8, 0x26#8], [], 2) := by decide

/-- Vector ST4 of spec/95 (R191). -/
theorem test_ST4 : seen [0x01FF] (step (machine ({ defaultParams with phpB := false }) 0x8000#16 0x00#8 0x00#8 0x00#8 0xFF#8 0xC3#8
      ([(0x8000, 0x08#8)] ++ vectors))) =
      some (0x8001#16, [0x00#8, 0x00#8, 0x00#8, 0xFE#8, 0xE3#8], [0xE3#8], 2) := by decide

/-- Vector ST5 of spec/95 (R193, R25). -/
theorem test_ST5 : seen [] (step (machine defaultParams 0x8000#16 0x00#8 0x00#8 0x00#8 0xFE#8 0x24#8
      ([(0x01FF, 0xFF#8), (0x8000, 0x28#8)] ++ vectors))) =
      some (0x8001#16, [0x00#8, 0x00#8, 0x00#8, 0xFF#8, 0xEF#8], [], 2) := by decide

/-- Vector AL-ADC-7F00 of spec/95 (R210). -/
theorem test_AL_ADC_7F00 : seen [] (step (machine defaultParams 0x8000#16 0x7F#8 0x00#8 0x00#8 0xFF#8 0x25#8
      ([(0x8000, 0x69#8)] ++ vectors))) =
      some (0x8002#16, [0x80#8, 0x00#8, 0x00#8, 0xFF#8, 0xE4#8], [], 2) := by decide

/-- Vector AL-ADC-8080 of spec/95 (R210). -/
theorem test_AL_ADC_8080 : seen [] (step (machine defaultParams 0x8000#16 0x80#8 0x00#8 0x00#8 0xFF#8 0x24#8
      ([(0x8000, 0x69#8), (0x8001, 0x80#8)] ++ vectors))) =
      some (0x8002#16, [0x00#8, 0x00#8, 0x00#8, 0xFF#8, 0x67#8], [], 2) := by decide

/-- Vector AL-SBC-8001 of spec/95 (R212). -/
theorem test_AL_SBC_8001 : seen [] (step (machine defaultParams 0x8000#16 0x80#8 0x00#8 0x00#8 0xFF#8 0x25#8
      ([(0x8000, 0xE9#8), (0x8001, 0x01#8)] ++ vectors))) =
      some (0x8002#16, [0x7F#8, 0x00#8, 0x00#8, 0xFF#8, 0x65#8], [], 2) := by decide

/-- Vector AL-BCDA-5846 of spec/95 (R211). -/
theorem test_AL_BCDA_5846 : seen [] (step (machine decimalParams 0x8000#16 0x58#8 0x00#8 0x00#8 0xFF#8 0x2D#8
      ([(0x8000, 0x69#8), (0x8001, 0x46#8)] ++ vectors))) =
      some (0x8002#16, [0x05#8, 0x00#8, 0x00#8, 0xFF#8, 0x6D#8], [], 2) := by decide

/-- Vector AL-BCDA-0F0F of spec/95 (R211). -/
theorem test_AL_BCDA_0F0F : seen [] (step (machine decimalParams 0x8000#16 0x0F#8 0x00#8 0x00#8 0xFF#8 0x2C#8
      ([(0x8000, 0x69#8), (0x8001, 0x0F#8)] ++ vectors))) =
      some (0x8002#16, [0x14#8, 0x00#8, 0x00#8, 0xFF#8, 0x2C#8], [], 2) := by decide

/-- Vector AL-BCDS-3202 of spec/95 (R213). -/
theorem test_AL_BCDS_3202 : seen [] (step (machine decimalParams 0x8000#16 0x32#8 0x00#8 0x00#8 0xFF#8 0x2C#8
      ([(0x8000, 0xE9#8), (0x8001, 0x02#8)] ++ vectors))) =
      some (0x8002#16, [0x29#8, 0x00#8, 0x00#8, 0xFF#8, 0x2D#8], [], 2) := by decide

/-- Vector AL-BIT1 of spec/95 (R218). -/
theorem test_AL_BIT1 : seen [] (step (machine defaultParams 0x8000#16 0x01#8 0x00#8 0x00#8 0xFF#8 0x24#8
      ([(0x0010, 0xC0#8), (0x8000, 0x24#8), (0x8001, 0x10#8)] ++ vectors))) =
      some (0x8002#16, [0x01#8, 0x00#8, 0x00#8, 0xFF#8, 0xE6#8], [], 3) := by decide

/-- Vector AL-CMP3 of spec/95 (R219). -/
theorem test_AL_CMP3 : seen [] (step (machine defaultParams 0x8000#16 0x80#8 0x00#8 0x00#8 0xFF#8 0x64#8
      ([(0x8000, 0xC9#8), (0x8001, 0x01#8)] ++ vectors))) =
      some (0x8002#16, [0x80#8, 0x00#8, 0x00#8, 0xFF#8, 0x65#8], [], 2) := by decide

/-- Vector SH6 of spec/95 (R253). -/
theorem test_SH6 : seen [] (step (machine defaultParams 0x8000#16 0x01#8 0x00#8 0x00#8 0xFF#8 0x25#8
      ([(0x8000, 0x6A#8)] ++ vectors))) =
      some (0x8001#16, [0x80#8, 0x00#8, 0x00#8, 0xFF#8, 0xA5#8], [], 1) := by decide

/-- Vector SH9 of spec/95 (R253, R254). -/
theorem test_SH9 : seen [0x2100] (step (machine defaultParams 0x8000#16 0x00#8 0x01#8 0x00#8 0xFF#8 0x25#8
      ([(0x8000, 0x7E#8), (0x8001, 0xFF#8), (0x8002, 0x20#8)] ++ vectors))) =
      some (0x8003#16, [0x00#8, 0x01#8, 0x00#8, 0xFF#8, 0xA4#8], [0x80#8], 5) := by decide

/-- Vector ID3 of spec/95 (R256). -/
theorem test_ID3 : seen [0x2000] (step (machine defaultParams 0x8000#16 0x00#8 0x00#8 0x00#8 0xFF#8 0x24#8
      ([(0x8000, 0xCE#8), (0x8002, 0x20#8)] ++ vectors))) =
      some (0x8003#16, [0x00#8, 0x00#8, 0x00#8, 0xFF#8, 0xA4#8], [0xFF#8], 5) := by decide

/-- Vector BR4 of spec/95 (R281). -/
theorem test_BR4 : seen [] (step (machine defaultParams 0x8000#16 0x00#8 0x00#8 0x00#8 0xFF#8 0x24#8
      ([(0x8000, 0x10#8), (0x8001, 0x80#8)] ++ vectors))) =
      some (0x7F82#16, [0x00#8, 0x00#8, 0x00#8, 0xFF#8, 0x24#8], [], 2) := by decide

/-- Vector BR11 of spec/95 (R287). -/
theorem test_BR11 : seen [] (step (machine defaultParams 0xFFF0#16 0x00#8 0x00#8 0x00#8 0xFF#8 0x24#8
      ([(0xFFF0, 0xD0#8), (0xFFF1, 0x10#8)] ++ vectors))) =
      some (0x0002#16, [0x00#8, 0x00#8, 0x00#8, 0xFF#8, 0x24#8], [], 2) := by decide

/-- Vector JP3 of spec/95 (R290). -/
theorem test_JP3 : seen [] (step (machine defaultParams 0x2000#16 0x00#8 0x00#8 0x00#8 0xFF#8 0x24#8
      ([(0x0000, 0x56#8), (0x2000, 0x6C#8), (0x2001, 0xFF#8), (0x2002, 0xFF#8)] ++ vectors))) =
      some (0x56A0#16, [0x00#8, 0x00#8, 0x00#8, 0xFF#8, 0x24#8], [], 5) := by decide

/-- Vector JP6 of spec/95 (R291). -/
theorem test_JP6 : seen [0x0100, 0x01FF] (step (machine defaultParams 0x8000#16 0x00#8 0x00#8 0x00#8 0x00#8 0x24#8
      ([(0x8000, 0x20#8), (0x8002, 0x90#8)] ++ vectors))) =
      some (0x9000#16, [0x00#8, 0x00#8, 0x00#8, 0xFE#8, 0x24#8], [0x80#8, 0x02#8], 5) := by decide

/-- Vector JP7 of spec/95 (R292). -/
theorem test_JP7 : seen [] (step (machine defaultParams 0x8000#16 0x00#8 0x00#8 0x00#8 0xFE#8 0x24#8
      ([(0x0100, 0xFF#8), (0x01FF, 0xFF#8), (0x8000, 0x60#8)] ++ vectors))) =
      some (0x0000#16, [0x00#8, 0x00#8, 0x00#8, 0x00#8, 0x24#8], [], 3) := by decide

/-- Vector JP8 of spec/95 (R293). -/
theorem test_JP8 : seen [] (step (machine defaultParams 0x8000#16 0x00#8 0x00#8 0x00#8 0xFC#8 0x24#8
      ([(0x01FD, 0xCF#8), (0x01FE, 0x34#8), (0x01FF, 0x12#8), (0x8000, 0x40#8)] ++ vectors))) =
      some (0x1234#16, [0x00#8, 0x00#8, 0x00#8, 0xFF#8, 0xEF#8], [], 4) := by decide

/-- Vector BK2 of spec/95 (R294). -/
theorem test_BK2 : seen [0x01FD, 0x01FE, 0x01FF] (step (machine defaultParams 0x8000#16 0x00#8 0x00#8 0x00#8 0xFF#8 0xEB#8
      ([(0x8001, 0xEA#8)] ++ vectors))) =
      some (0xA000#16, [0x00#8, 0x00#8, 0x00#8, 0xFC#8, 0xE7#8], [0xFB#8, 0x02#8, 0x80#8], 6) := by decide

/-- Vector BK4 of spec/95 (R294). -/
theorem test_BK4 : seen [0x01FD, 0x01FE, 0x01FF] (step { machine ({ defaultParams with brkClearsIrq := true }) 0x8000#16 0x00#8 0x00#8 0x00#8 0xFF#8 0x24#8
      ([] ++ vectors) with
      latch := { nmi := false, irq := true } }) =
      some (0xA000#16, [0x00#8, 0x00#8, 0x00#8, 0xFC#8, 0x24#8], [0x34#8, 0x02#8, 0x80#8], 6) := by decide

/-- Vector IN4 of spec/95 (R405). -/
theorem test_IN4 : seen [0x01FD, 0x01FE, 0x01FF] (step { machine defaultParams 0x8000#16 0x00#8 0x00#8 0x00#8 0xFF#8 0x20#8
      ([(0x8000, 0xEA#8)] ++ vectors) with
      latch := { nmi := true, irq := true } }) =
      some (0xC000#16, [0x00#8, 0x00#8, 0x00#8, 0xFC#8, 0x24#8], [0x20#8, 0x00#8, 0x80#8], 5) := by decide

/-- Vector IN6 of spec/95 (R406). -/
theorem test_IN6 : seen [0x0100, 0x01FE, 0x01FF] (step { machine defaultParams 0x8000#16 0x00#8 0x00#8 0x00#8 0x00#8 0xCB#8
      ([(0x8000, 0xEA#8)] ++ vectors) with
      latch := { nmi := false, irq := true } }) =
      some (0xA000#16, [0x00#8, 0x00#8, 0x00#8, 0xFD#8, 0xE7#8], [0x80#8, 0xEB#8, 0x00#8], 5) := by decide

/-- Vector IN8 of spec/95 (R425). -/
theorem test_IN8 : seen [0x01FD, 0x01FE, 0x01FF] (step { machine defaultParams 0x8000#16 0x00#8 0x00#8 0x00#8 0xFF#8 0x24#8
      ([(0x8000, 0xEA#8)] ++ vectors) with
      latch := { nmi := true, irq := false }, halted := true }) =
      some (0xC000#16, [0x00#8, 0x00#8, 0x00#8, 0xFC#8, 0x24#8], [0x24#8, 0x00#8, 0x80#8], 5) := by decide

/-- Vector IN9 of spec/95 (R425). -/
theorem test_IN9 : seen [] (step { machine defaultParams 0x8000#16 0x00#8 0x00#8 0x00#8 0xFF#8 0x24#8
      ([(0x8000, 0xEA#8)] ++ vectors) with
      latch := { nmi := false, irq := true }, halted := true }) =
      some (0x8000#16, [0x00#8, 0x00#8, 0x00#8, 0xFF#8, 0x24#8], [], 0) := by decide

/-- Vector NP3 of spec/95 (R318). -/
theorem test_NP3 : seen [] (step (machine defaultParams 0x8000#16 0x00#8 0x00#8 0x00#8 0xFF#8 0x24#8
      ([(0x8000, 0x5C#8), (0x8002, 0x20#8)] ++ vectors))) =
      some (0x8001#16, [0x00#8, 0x00#8, 0x00#8, 0xFF#8, 0x24#8], [], 1) := by decide

/-- Vector NP4 of spec/95 (R319). -/
theorem test_NP4 : seen [] (step (machine defaultParams 0x8000#16 0x00#8 0x00#8 0x00#8 0xFF#8 0x20#8
      ([(0x8000, 0xCB#8)] ++ vectors))) =
      some (0x8001#16, [0x00#8, 0x00#8, 0x00#8, 0xFF#8, 0x20#8], [], 1) := by decide

/-- Vector NP7 of spec/95 (R318). -/
theorem test_NP7 : seen [] (step (machine defaultParams 0x8000#16 0x00#8 0x00#8 0x00#8 0xFF#8 0x24#8
      ([(0x8000, 0x80#8), (0x8001, 0x10#8)] ++ vectors))) =
      some (0x8001#16, [0x00#8, 0x00#8, 0x00#8, 0xFF#8, 0x24#8], [], 1) := by decide

/-- Vector EX4 of spec/95 (R332). -/
theorem test_EX4 : seen [0x0100] (step (machine allExtensions 0x8000#16 0x00#8 0x00#8 0x34#8 0x00#8 0x24#8
      ([(0x8000, 0x5A#8)] ++ vectors))) =
      some (0x8001#16, [0x00#8, 0x00#8, 0x34#8, 0xFF#8, 0x24#8], [0x34#8], 2) := by decide

/-- Vector EX6 of spec/95 (R333). -/
theorem test_EX6 : seen [] (step (machine allExtensions 0x8000#16 0x00#8 0x00#8 0x01#8 0xFE#8 0x24#8
      ([(0x8000, 0x7A#8)] ++ vectors))) =
      some (0x8001#16, [0x00#8, 0x00#8, 0x00#8, 0xFF#8, 0x26#8], [], 2) := by decide

/-- Vector EX10 of spec/95 (R334). -/
theorem test_EX10 : seen [0x0001] (step (machine allExtensions 0x8000#16 0x00#8 0x02#8 0x00#8 0xFF#8 0x24#8
      ([(0x0001, 0xFF#8), (0x8000, 0x9E#8), (0x8001, 0xFF#8), (0x8002, 0xFF#8)] ++ vectors))) =
      some (0x8003#16, [0x00#8, 0x02#8, 0x00#8, 0xFF#8, 0x24#8], [0x00#8], 4) := by decide

/-- Vector EX11 of spec/95 (R335). -/
theorem test_EX11 : seen [] (step (machine allExtensions 0x8000#16 0xFF#8 0x00#8 0x00#8 0xFF#8 0x24#8
      ([(0x8000, 0x1A#8)] ++ vectors))) =
      some (0x8001#16, [0x00#8, 0x00#8, 0x00#8, 0xFF#8, 0x26#8], [], 1) := by decide

/-- Vector EX13 of spec/95 (R336). -/
theorem test_EX13 : seen [] (step (machine allExtensions 0x8000#16 0x7F#8 0x00#8 0x00#8 0xFF#8 0x24#8
      ([(0x8000, 0x89#8), (0x8001, 0x80#8)] ++ vectors))) =
      some (0x8002#16, [0x7F#8, 0x00#8, 0x00#8, 0xFF#8, 0x26#8], [], 2) := by decide

/-- Vector EX16 of spec/95 (R337). -/
theorem test_EX16 : seen [0x0010] (step (machine allExtensions 0x8000#16 0x0F#8 0x00#8 0x00#8 0xFF#8 0x24#8
      ([(0x0010, 0xF0#8), (0x8000, 0x04#8), (0x8001, 0x10#8)] ++ vectors))) =
      some (0x8002#16, [0x0F#8, 0x00#8, 0x00#8, 0xFF#8, 0x26#8], [0xFF#8], 4) := by decide

/-- Vector EX19 of spec/95 (R338). -/
theorem test_EX19 : seen [0x2000] (step (machine allExtensions 0x8000#16 0x0F#8 0x00#8 0x00#8 0xFF#8 0x24#8
      ([(0x2000, 0xF0#8), (0x8000, 0x1C#8), (0x8002, 0x20#8)] ++ vectors))) =
      some (0x8003#16, [0x0F#8, 0x00#8, 0x00#8, 0xFF#8, 0x26#8], [0xF0#8], 5) := by decide

/-- Vector EX20 of spec/95 (R340). -/
theorem test_EX20 : seen [0x0010] (step (machine allExtensions 0x8000#16 0x00#8 0x00#8 0x00#8 0xFF#8 0x24#8
      ([(0x0010, 0xFF#8), (0x8000, 0x37#8), (0x8001, 0x10#8)] ++ vectors))) =
      some (0x8002#16, [0x00#8, 0x00#8, 0x00#8, 0xFF#8, 0x24#8], [0xF7#8], 4) := by decide

/-- Vector EX21 of spec/95 (R340). -/
theorem test_EX21 : seen [0x0010] (step (machine allExtensions 0x8000#16 0x00#8 0x00#8 0x00#8 0xFF#8 0x24#8
      ([(0x8000, 0xF7#8), (0x8001, 0x10#8)] ++ vectors))) =
      some (0x8002#16, [0x00#8, 0x00#8, 0x00#8, 0xFF#8, 0x24#8], [0x80#8], 4) := by decide

/-- Vector EX22 of spec/95 (R339). -/
theorem test_EX22 : seen [] (step (machine allExtensions 0x8000#16 0x00#8 0x00#8 0x00#8 0xFF#8 0x24#8
      ([(0x0010, 0xFE#8), (0x8000, 0x0F#8), (0x8001, 0x10#8), (0x8002, 0x05#8)] ++ vectors))) =
      some (0x8008#16, [0x00#8, 0x00#8, 0x00#8, 0xFF#8, 0x24#8], [], 4) := by decide

/-- Vector EX24 of spec/95 (R339). -/
theorem test_EX24 : seen [] (step (machine allExtensions 0x8000#16 0x00#8 0x00#8 0x00#8 0xFF#8 0x24#8
      ([(0x0010, 0x80#8), (0x8000, 0xFF#8), (0x8001, 0x10#8), (0x8002, 0xFD#8)] ++ vectors))) =
      some (0x8000#16, [0x00#8, 0x00#8, 0x00#8, 0xFF#8, 0x24#8], [], 4) := by decide

/-- Vector EX26 of spec/95 (R341). -/
theorem test_EX26 : seen [] (step (machine allExtensions 0x8000#16 0x00#8 0x01#8 0x00#8 0xFF#8 0x24#8
      ([(0x0000, 0x11#8), (0x0001, 0x22#8), (0x8000, 0x7C#8), (0x8001, 0xFF#8), (0x8002, 0xFF#8)] ++ vectors))) =
      some (0x2211#16, [0x00#8, 0x01#8, 0x00#8, 0xFF#8, 0x24#8], [], 5) := by decide

/-! ## Tests beyond the vectors -/

/-- The two reads of the reset vector are carried into the first step (R450, vector RS1). -/
theorem test_RS1 : (newCore defaultParams [(0x8000, 0xA9#8), (0x8001, 0x42#8), (0xFFFD, 0x80#8)] [] []).cycles = 2
    ∧ seen [] (step (newCore defaultParams [(0x8000, 0xA9#8), (0x8001, 0x42#8), (0xFFFD, 0x80#8)] [] []))
      = some (0x8002#16, [0x42#8, 0x00#8, 0x00#8, 0xFF#8, 0x24#8], [], 4) := by decide

/-- `reset()` sets SP, I, PC and clears halted, and keeps the rest (R452, vector RS4). -/
theorem test_reset_call :
    hostReset { machine defaultParams 0x1234#16 0x11#8 0x22#8 0x33#8 0x44#8 0xEB#8 vectors with halted := true } =
      { machine defaultParams 0x8000#16 0x11#8 0x22#8 0x33#8 0xFD#8 0xEF#8 vectors with
        cycles   := 2
        accesses := [.read 0xFFFC#16 0x00#8, .read 0xFFFD#16 0x80#8] } := by decide

/-- An instruction placed where the fetch finds it is the one the next step runs, right after reset (log 9). -/
theorem test_withFetchWord : seen [] (step (State.reset.withFetchWord 16 0x42A9))
    = some (0x0002#16, [0x42#8, 0x00#8, 0x00#8, 0xFF#8, 0x24#8], [], 4) := by decide

/-- The accesses of JSR in order (vector AC1). -/
theorem test_AC1 : (match step (machine defaultParams 0x8000#16 0x00#8 0x00#8 0x00#8 0xFF#8 0x24#8
      [(0x8000, 0x20#8), (0x8002, 0x90#8)]) with
    | .next t => t.accesses
    | _       => [])
    = [.read 0x8000#16 0x20#8, .read 0x8001#16 0x00#8, .read 0x8002#16 0x90#8, .write 0x01FF#16 0x80#8,
      .write 0x01FE#16 0x02#8] := by decide

/-! ## A witness for the hypotheses of every statement that has any -/

/-- A core at 0x8000 on RAM that holds `code` there. -/
def running (code : Memory) : State := machine defaultParams 0x8000#16 0x12#8 0x01#8 0x02#8 0xFF#8 0x24#8 code

/-- A core in decimal arithmetic with A = 0x99 and C = 1. -/
def decimal : State := machine decimalParams 0x8000#16 0x99#8 0x00#8 0x00#8 0xFF#8 0x2D#8 []

/-- Both interrupts latched and enabled. -/
def bothLatched : State := { running [] with latch := { nmi := true, irq := true }, p := Flags.ofByte 0x20#8 }

/-- An IRQ latched and enabled. -/
def irqLatched : State := { bothLatched with latch := { nmi := false, irq := true } }

/-- An IRQ latched and masked, on a BRK. -/
def irqMasked : State := { running [] with latch := { nmi := false, irq := true } }

def isHalted : State := { running [] with halted := true }

theorem witness_inv : State.reset.Inv ∧ (running [(0x8000, 0xA9#8)]).Inv := ⟨rfl, rfl⟩

theorem witness_EncodeInvertsDecode : ∃ bytes rest i, decode bytes = .ok (i, rest) :=
  ⟨[0x96#8, 0xF0#8, 0x01#8], [0x01#8], .stx (.zpY 0xF0#8), rfl⟩

theorem witness_DecodeInvertsEncode : ∃ (i : Instr) (bytes : List Byte), encode i = some bytes :=
  ⟨.jmp (.ind 0xFFFF#16), _, rfl⟩

/-- PC at 0xFFFE: the fetch wraps to 0x0000. -/
theorem witness_StepRunsTheDecodedInstruction : ∃ (s : State) (i : Instr) (rest : List Byte),
    s.serviceable = none ∧ s.halted = false ∧ codeIsRam s ∧ switchedOff s.params (s.mem.read s.pc.toNat) = false
      ∧ decode (bytesAtPc s) = .ok (i, rest) :=
  ⟨machine defaultParams 0xFFFE#16 0x00#8 0x00#8 0x00#8 0xFF#8 0x24#8 [(0x0000, 0x12#8), (0xFFFE, 0x8D#8), (0xFFFF, 0x34#8)],
    .sta (.abs 0x1234#16), [], rfl, rfl, ⟨rfl, rfl, rfl⟩, by decide, by decide⟩

theorem witness_UnimplementedOpcode : ∃ s : State, s.serviceable = none ∧ s.halted = false
    ∧ implemented s.params (s.busValue s.pc) = false :=
  ⟨running [(0x8000, 0x02#8)], rfl, rfl, by decide⟩

theorem witness_UnimplementedOpcode_switchedOff : ∃ s : State, s.serviceable = none ∧ s.halted = false
    ∧ implemented s.params (s.busValue s.pc) = false ∧ switchedOff s.params (s.busValue s.pc) = true :=
  ⟨running [(0x8000, 0xFF#8)], rfl, rfl, by decide, by decide⟩

theorem witness_UnimplementedOpcode_nop : ∃ s : State, s.serviceable = none ∧ s.halted = false
    ∧ s.busValue s.pc = 0xEA#8 :=
  ⟨running [(0x8000, 0xEA#8)], rfl, rfl, by decide⟩

theorem witness_UnimplementedOpcode_undefined : 0xFC#8 ∈ undefinedOpcodes := by decide

theorem witness_UnimplementedOpcode_extension : extensionOf 0x07#8 = some .bitOps := by decide

theorem witness_step : ∃ t, step State.reset = .next t := ⟨_, rfl⟩

theorem witness_TicksFollowTheOpcode : ∃ s t : State, step s = .next t ∧ s.serviceable = none ∧ s.halted = false :=
  ⟨running [], _, rfl, rfl, rfl⟩

theorem witness_TicksFollowTheOpcode_entry : ∃ s t : State, step s = .next t ∧ s.serviceable ≠ none :=
  ⟨irqLatched, _, rfl, by decide⟩

theorem witness_TicksFollowTheOpcode_halted : ∃ s t : State, step s = .next t ∧ s.serviceable = none ∧ s.halted = true :=
  ⟨isHalted, _, rfl, rfl, rfl⟩

theorem witness_ResultsDoNotDependOnCycles : ∃ (i : Instr) (s t : State), exec i s = .next t :=
  ⟨.brk, State.reset, _, rfl⟩

theorem witness_StepKeepsMemoryCanonical : ∃ s t : State, s.Inv ∧ step s = .next t := ⟨State.reset, _, rfl, rfl⟩

theorem witness_HostCallsKeepMemoryCanonical : ∃ (c : HostCall) (s t : State), s.Inv ∧ hostCall c s = .next t :=
  ⟨.reset, State.reset, _, rfl, rfl⟩

theorem witness_HostCallsKeepMemoryCanonical_new : Memory.wf [(0x0000, 0x01#8), (0xFFFF, 0x80#8)] = true := by decide

theorem witness_InterruptEntry_nmi : ∃ s : State, s.Inv ∧ s.serviceable = some .nmi := ⟨bothLatched, rfl, by decide⟩

theorem witness_InterruptEntry_irq : ∃ s : State, s.Inv ∧ s.serviceable = some .irq := ⟨irqLatched, rfl, by decide⟩

theorem witness_NmiOutranksIrq : ∃ s t : State,
    s.latch.nmi = true ∧ s.latch.irq = true ∧ step s = .next t ∧ s.Inv ∧ s.clockAnswer.nmi = false :=
  ⟨bothLatched, _, rfl, rfl, rfl, rfl, rfl⟩

theorem witness_MaskedIrqStaysLatched : ∃ s t : State, s.latch.irq = true ∧ s.p.i = true ∧ step s = .next t
    ∧ s.params.brkClearsIrq = false :=
  ⟨irqMasked, _, rfl, rfl, rfl, rfl⟩

theorem witness_MaskedIrqStaysLatched_notBrk : ∃ s t : State, s.latch.irq = true ∧ s.p.i = true ∧ step s = .next t
    ∧ (fetchInstr (beginStep s)).1 ≠ .brk :=
  ⟨{ irqMasked with mem := [(0x8000, 0xEA#8)], params := { defaultParams with brkClearsIrq := true } }, _, rfl, rfl, rfl,
    by decide⟩

theorem witness_HaltedStepDoesNothing : ∃ s : State, s.halted = true ∧ s.serviceable = none := ⟨isHalted, rfl, rfl⟩

theorem witness_ClockAnswerIsLatched : ∃ s t : State, step s = .next t ∧ s.clockAnswer.nmi = true
    ∧ s.clockAnswer.irq = true :=
  ⟨{ State.reset with clockAnswers := [{ nmi := true, irq := true, writes := [] }] }, _, rfl, rfl, rfl⟩

/-- SP = 0x00: the three bytes wrap inside page 1. -/
theorem witness_RtiUndoesInterruptEntry : ∃ s : State, s.Inv ∧ stackTopIsRam s :=
  ⟨{ running [] with sp := 0x00#8 }, rfl, rfl, rfl, rfl⟩

theorem witness_EffectiveAddresses : ∃ (m : Addr) (s : State), zeroPagePointer m s = some 0xFF#8 ∧ pointerIsRam m s :=
  ⟨.indX 0xFE#8, running [], rfl, fun z h => by cases h; exact ⟨rfl, rfl⟩⟩

theorem witness_ReadAfterWrite : ∃ (s : State) (a b : Word), s.Inv ∧ s.isRam a ∧ s.isRam b ∧ a = b :=
  ⟨State.reset, 0xFFFF#16, 0xFFFF#16, rfl, rfl, rfl, rfl⟩

theorem witness_ReadAfterWrite_other : ∃ (s : State) (a b : Word), s.Inv ∧ s.isRam a ∧ s.isRam b ∧ a ≠ b :=
  ⟨State.reset, 0x0000#16, 0xFFFF#16, rfl, rfl, rfl, by decide⟩

/-- A device's address is not RAM, so `ReadsRam` does not always hold for want of a premise. -/
theorem witness_isRam : (running []).isRam 0x8000#16
    ∧ ({ running [] with windows := [{ base := 0x8000, size := 1 }] } : State).isDevice 0x8000#16 = true :=
  ⟨rfl, by decide⟩

theorem witness_PullUndoesPush : ∃ s : State, s.Inv ∧ s.isRam (stackAddr s.sp) := ⟨State.reset, rfl, rfl⟩

theorem witness_AdcSbcBinary : ∃ s : State, s.p.d = false := ⟨State.reset, rfl⟩

theorem witness_AdcSbcBinary_decimalFlag : ∃ s : State, s.p.d = true ∧ s.params.decimalMode = .binary :=
  ⟨{ State.reset with p := { State.reset.p with d := true } }, rfl, rfl⟩

theorem witness_AdcSbcDecimal : ∃ (src : Src) (s : State), s.p.d = true ∧ s.params.decimalMode = .bcd65c02
    ∧ isBcd s.a ∧ isBcd (load src s).1 :=
  ⟨.imm 0x90#8, decimal, rfl, rfl, ⟨by decide, by decide⟩, ⟨by decide, by decide⟩⟩

/-- A low digit that is no decimal digit, on which the decimal statements say the sequences of R211 and R213. -/
theorem witness_AdcSbcDecimal_otherDigits : ∃ (src : Src) (s : State), s.p.d = true
    ∧ s.params.decimalMode = .bcd65c02 ∧ ¬ isBcd (load src s).1 :=
  ⟨.imm 0x0F#8, decimal, rfl, rfl, fun h => absurd h.2 (by decide)⟩

theorem witness_BranchesMovePcWhenTaken : (Instr.bra, 0x80#8, fun _ : Flags => true) ∈
    [(Instr.bpl, 0x10#8, fun f : Flags => !f.n), (Instr.bmi, 0x30#8, fun f => f.n),
     (Instr.bvc, 0x50#8, fun f => !f.v), (Instr.bvs, 0x70#8, fun f => f.v),
     (Instr.bcc, 0x90#8, fun f => !f.c), (Instr.bcs, 0xB0#8, fun f => f.c),
     (Instr.bne, 0xD0#8, fun f => !f.z), (Instr.beq, 0xF0#8, fun f => f.z),
     (Instr.bra, 0x80#8, fun _ => true)] := by simp

theorem witness_BitsOfZeroPageBytes : ((7 : Fin 8), Instr.rmb7, Instr.smb7) ∈
    [((0 : Fin 8), Instr.rmb0, Instr.smb0), (1, Instr.rmb1, Instr.smb1),
     (2, Instr.rmb2, Instr.smb2), (3, Instr.rmb3, Instr.smb3),
     (4, Instr.rmb4, Instr.smb4), (5, Instr.rmb5, Instr.smb5),
     (6, Instr.rmb6, Instr.smb6), (7, Instr.rmb7, Instr.smb7)] := by simp

theorem witness_BranchesOnBits : ((7 : Fin 8), Instr.bbr7, Instr.bbs7) ∈
    [((0 : Fin 8), Instr.bbr0, Instr.bbs0), (1, Instr.bbr1, Instr.bbs1),
     (2, Instr.bbr2, Instr.bbs2), (3, Instr.bbr3, Instr.bbs3),
     (4, Instr.bbr4, Instr.bbs4), (5, Instr.bbr5, Instr.bbs5),
     (6, Instr.bbr6, Instr.bbs6), (7, Instr.bbr7, Instr.bbs7)] := by simp

theorem witness_RtsReturnsFromJsr : ∃ s : State, s.Inv ∧ s.isRam (stackAddr s.sp) ∧ s.isRam (stackAddr (s.sp - 1)) :=
  ⟨{ running [] with sp := 0x00#8 }, rfl, rfl, rfl⟩

/-- One instruction that is in none of the lists of the frame statement. -/
theorem witness_OnlyTheListedInstructionsWrite : ∃ (i : Instr) (s t : State), exec i s = .next t
    ∧ writesA i = false ∧ writesX i = false ∧ writesY i = false ∧ writesSp i = false ∧ transfersControl i = false
    ∧ writesN i = false ∧ writesV i = false ∧ writesD i = false ∧ writesI i = false ∧ writesZ i = false
    ∧ writesC i = false ∧ i ≠ .brk :=
  ⟨.nop, State.reset, _, rfl, rfl, rfl, rfl, rfl, rfl, rfl, rfl, rfl, rfl, rfl, rfl, by decide⟩

theorem witness_OnlyTheListedInstructionsWrite_brk : ∃ (s t : State), exec .brk s = .next t
    ∧ s.params.brkClearsIrq = false :=
  ⟨State.reset, _, rfl, rfl⟩

theorem witness_MemoryChangesAreRecorded : ∃ (i : Instr) (s t : State), exec i s = .next t ∧ storesToMemory i = false :=
  ⟨.rti, State.reset, _, rfl, rfl⟩

theorem witness_MemoryChangesAreRecorded_store : ∃ (i : Instr) (s t : State) (a : Nat), exec i s = .next t
    ∧ t.mem.read a ≠ s.mem.read a :=
  ⟨.sta (.abs 0xFFFF#16), running [], _, 0xFFFF, rfl, by decide⟩

end Sys2Proof.Tests
end

section
/-!
P as a byte and back (spec R24, R25).
-/

namespace Sys2Proof.Machine

/-- P as a byte is its eight bits, one after the other from bit 7 down. -/
theorem Flags.toByte_eq_concat (f : Flags) (b : Bool) : f.toByte b =
    (((((((BitVec.ofBool f.n).concat f.v).concat true).concat b).concat f.d).concat f.i).concat f.z).concat f.c := rfl

theorem Flags.toByte_toNat (f : Flags) (b : Bool) : (f.toByte b).toNat =
    128 * f.n.toNat + 64 * f.v.toNat + 32 + 16 * b.toNat + 8 * f.d.toNat + 4 * f.i.toNat + 2 * f.z.toNat + f.c.toNat := by
  simp only [toByte_eq_concat, BitVec.toNat_concat, BitVec.toNat_ofBool, Bool.toNat_true]
  omega

@[simp] theorem Flags.ofByte_toByte (f : Flags) (b : Bool) : Flags.ofByte (f.toByte b) = f := by
  simp [Flags.ofByte, toByte_eq_concat]

/-- Restoring P from a byte loses bits 5 and 4 alone. -/
theorem Flags.toByte_ofByte_getLsbD (v : Byte) (b : Bool) (k : Fin 8) : ((Flags.ofByte v).toByte b).getLsbD k =
    if k = 5 then true else if k = 4 then b else v.getLsbD k := by
  fin_cases k <;> simp [Flags.ofByte, toByte_eq_concat]

/-- Settles O28, from the eight bits of P as a byte. -/
theorem statusByteRoundTrip : Obligations.StatusByteRoundTrip :=
  ⟨Flags.toByte_toNat, Flags.ofByte_toByte, Flags.toByte_ofByte_getLsbD⟩

end Sys2Proof.Machine
end

section
/-!
What an instruction may write, as a footprint of registers and flags, and the operations that stay inside one: each
law extends a run of operations by one more, so that an instruction's frame is read off its meaning.
-/

namespace Sys2Proof.Machine

/-- The registers, the flags and the latch that may be written. -/
structure Footprint where
  a     : Bool
  x     : Bool
  y     : Bool
  sp    : Bool
  pc    : Bool
  n     : Bool
  v     : Bool
  d     : Bool
  i     : Bool
  z     : Bool
  c     : Bool
  latch : Bool

/-- The footprint of an instruction by the spec's lists of writers (R21-R23, R26, R27); BRK alone may write the latch,
and only under BRK_CLEARS_IRQ (R30, R401). -/
def Footprint.ofInstr (p : Params) (i : Instr) : Footprint where
  a     := writesA i
  x     := writesX i
  y     := writesY i
  sp    := writesSp i
  pc    := transfersControl i
  n     := writesN i
  v     := writesV i
  d     := writesD i
  i     := writesI i
  z     := writesZ i
  c     := writesC i
  latch := decide (i = .brk) && p.brkClearsIrq

/-- Only flags of the footprint differ between `f` and `g`. -/
structure FlagsWithin (w : Footprint) (f g : Flags) : Prop where
  n : w.n = false → g.n = f.n
  v : w.v = false → g.v = f.v
  d : w.d = false → g.d = f.d
  i : w.i = false → g.i = f.i
  z : w.z = false → g.z = f.z
  c : w.c = false → g.c = f.c

/-- `t` has the registers, flags and latch of `s` outside the footprint, and the same halt flag, parameters and
platform; what instructions do to memory, the tick count and the record is left open. -/
structure Within (w : Footprint) (s t : State) : Prop where
  a            : w.a = false → t.a = s.a
  x            : w.x = false → t.x = s.x
  y            : w.y = false → t.y = s.y
  sp           : w.sp = false → t.sp = s.sp
  pc           : w.pc = false → t.pc = s.pc
  p            : FlagsWithin w s.p t.p
  latch        : w.latch = false → t.latch = s.latch
  halted       : t.halted = s.halted
  params       : t.params = s.params
  windows      : t.windows = s.windows
  clockAnswers : t.clockAnswers = s.clockAnswers
  returned     : t.returned = s.returned

/-! ## The flags -/

section FlagsWithin

variable {w : Footprint} {f g : Flags}

theorem FlagsWithin.refl (f : Flags) : FlagsWithin w f f :=
  ⟨fun _ => rfl, fun _ => rfl, fun _ => rfl, fun _ => rfl, fun _ => rfl, fun _ => rfl⟩

theorem FlagsWithin.trans {e : Flags} (h : FlagsWithin w e f) (h' : FlagsWithin w f g) : FlagsWithin w e g where
  n hw := (h'.n hw).trans (h.n hw)
  v hw := (h'.v hw).trans (h.v hw)
  d hw := (h'.d hw).trans (h.d hw)
  i hw := (h'.i hw).trans (h.i hw)
  z hw := (h'.z hw).trans (h.z hw)
  c hw := (h'.c hw).trans (h.c hw)

theorem FlagsWithin.setNZ (h : FlagsWithin w f g) (r : Byte) (hn : w.n = true) (hz : w.z = true) :
    FlagsWithin w f (g.setNZ r) :=
  { h with n := by simp [hn], z := by simp [hz] }

theorem FlagsWithin.setV (h : FlagsWithin w f g) (b : Bool) (hv : w.v = true) : FlagsWithin w f { g with v := b } :=
  { h with v := by simp [hv] }

theorem FlagsWithin.setD (h : FlagsWithin w f g) (b : Bool) (hd : w.d = true) : FlagsWithin w f { g with d := b } :=
  { h with d := by simp [hd] }

theorem FlagsWithin.setI (h : FlagsWithin w f g) (b : Bool) (hi : w.i = true) : FlagsWithin w f { g with i := b } :=
  { h with i := by simp [hi] }

theorem FlagsWithin.setC (h : FlagsWithin w f g) (b : Bool) (hc : w.c = true) : FlagsWithin w f { g with c := b } :=
  { h with c := by simp [hc] }

/-- BIT #, TSB and TRB test a byte into Z alone (R336-R338). -/
theorem testZ_within (a m : Byte) (f : Flags) (hz : w.z = true) : FlagsWithin w f (testZ a m f) :=
  { FlagsWithin.refl f with z := by simp [hz] }

theorem bitFlags_within (a m : Byte) (f : Flags) (hn : w.n = true) (hv : w.v = true) (hz : w.z = true) :
    FlagsWithin w f (bitFlags a m f) :=
  { testZ_within a m f hz with n := by simp [hn], v := by simp [hv] }

/-- Compares and shifts set N and Z from their result, and C (R219-R221, R250-R253). -/
theorem setNZC_within (r : Byte) (b : Bool) (f : Flags) (hn : w.n = true) (hz : w.z = true) (hc : w.c = true) :
    FlagsWithin w f { f.setNZ r with c := b } :=
  ((FlagsWithin.refl f).setNZ r hn hz).setC b hc

/-- Additions and subtractions set N and Z from their result, and C and V (R210-R213). -/
theorem setNZCV_within (r : Byte) (b o : Bool) (f : Flags) (hn : w.n = true) (hz : w.z = true) (hc : w.c = true)
    (hv : w.v = true) : FlagsWithin w f { f.setNZ r with c := b, v := o } :=
  (setNZC_within r b f hn hz hc).setV o hv

theorem adcResult_within (p : Params) (a m : Byte) (f : Flags) (hn : w.n = true) (hz : w.z = true) (hc : w.c = true)
    (hv : w.v = true) : FlagsWithin w f (adcResult p a m f).2 := by
  unfold adcResult
  split
  · exact setNZCV_within _ _ _ f hn hz hc hv
  · exact setNZCV_within _ _ _ f hn hz hc hv

theorem sbcResult_within (p : Params) (a m : Byte) (f : Flags) (hn : w.n = true) (hz : w.z = true) (hc : w.c = true)
    (hv : w.v = true) : FlagsWithin w f (sbcResult p a m f).2 := by
  unfold sbcResult
  split
  · exact setNZCV_within _ _ _ f hn hz hc hv
  · exact setNZCV_within _ _ _ f hn hz hc hv

end FlagsWithin

/-! ## The state -/

section Within

variable {w : Footprint} {s t : State}

theorem Within.refl (s : State) : Within w s s :=
  ⟨fun _ => rfl, fun _ => rfl, fun _ => rfl, fun _ => rfl, fun _ => rfl, .refl s.p, fun _ => rfl, rfl, rfl, rfl, rfl, rfl⟩

theorem Within.setA (h : Within w s t) (v : Byte) (ha : w.a = true) : Within w s (t.setA v) :=
  { h with a := by simp [ha] }

theorem Within.setX (h : Within w s t) (v : Byte) (hx : w.x = true) : Within w s (t.setX v) :=
  { h with x := by simp [hx] }

theorem Within.setY (h : Within w s t) (v : Byte) (hy : w.y = true) : Within w s (t.setY v) :=
  { h with y := by simp [hy] }

theorem Within.setSp (h : Within w s t) (v : Byte) (hsp : w.sp = true) : Within w s (t.setSp v) :=
  { h with sp := by simp [hsp] }

theorem Within.setPc (h : Within w s t) (v : Word) (hpc : w.pc = true) : Within w s (t.setPc v) :=
  { h with pc := by simp [hpc] }

theorem Within.setLatch (h : Within w s t) (l : Latch) (hl : w.latch = true) : Within w s (t.setLatch l) :=
  { h with latch := by simp [hl] }

theorem Within.setP (h : Within w s t) {f : Flags} (hf : FlagsWithin w t.p f) : Within w s (t.setP f) :=
  { h with p := h.p.trans hf }

theorem Within.setNZ (h : Within w s t) (v : Byte) (hn : w.n = true) (hz : w.z = true) : Within w s (t.setNZ v) :=
  h.setP ((FlagsWithin.refl t.p).setNZ v hn hz)

/-- PLP and RTI restore all of P (R25). -/
theorem Within.restoreP (h : Within w s t) (v : Byte) (hn : w.n = true) (hv : w.v = true) (hd : w.d = true)
    (hi : w.i = true) (hz : w.z = true) (hc : w.c = true) : Within w s (t.setP (Flags.ofByte v)) :=
  h.setP (by constructor <;> simp [hn, hv, hd, hi, hz, hc])

theorem Within.afterReads (h : Within w s t) {l : List BusAccess} {u : State} (hr : AfterReads l t u) :
    Within w s u := by
  obtain ⟨-, hu⟩ := hr
  rw [hu]
  exact { h with }

theorem Within.memWrite (h : Within w s t) (a : Word) (v : Byte) : Within w s (memWrite a v t) := { h with }

/-! ### Stack, addressing modes, branches -/

theorem Within.push (h : Within w s t) (v : Byte) (hsp : w.sp = true) : Within w s (push v t) :=
  (h.memWrite (stackAddr t.sp) v).setSp (t.sp - 1) hsp

theorem Within.pushWord (h : Within w s t) (v : Word) (hsp : w.sp = true) : Within w s (pushWord v t) :=
  (h.push (highByte v) hsp).push (lowByte v) hsp

theorem Within.pop (h : Within w s t) (hsp : w.sp = true) : Within w s (pop t).2 :=
  (h.setSp (t.sp + 1) hsp).afterReads (memRead_afterReads _ _)

theorem Within.popWord (h : Within w s t) (hsp : w.sp = true) : Within w s (popWord t).2 :=
  (h.pop hsp).pop hsp

theorem Within.load (h : Within w s t) (src : Src) : Within w s (load src t).2 :=
  h.afterReads (load_afterReads src t)

theorem Within.store (h : Within w s t) (m : Addr) (v : Byte) : Within w s (store m v t) :=
  (h.afterReads (resolve_afterReads m t)).memWrite (resolve m t).1 v

theorem Within.branchIf (h : Within w s t) (cond : Bool) (d : Byte) (hpc : w.pc = true) :
    Within w s (branchIf cond d t) := by
  cases cond with
  | false => exact h
  | true => exact h.setPc _ hpc

theorem Within.branchOnBit (h : Within w s t) (n : Nat) (want : Bool) (zz d : Byte) (hpc : w.pc = true) :
    Within w s (branchOnBit n want zz d t) :=
  (h.afterReads (memRead_afterReads (zeroPageAddr zz) t)).branchIf _ d hpc

/-- BRK and interrupt entry write SP and PC, and I and D of P (R294, R406). -/
theorem Within.takeEntry (h : Within w s t) (b : Bool) (ret vector : Word) (hsp : w.sp = true) (hpc : w.pc = true)
    (hi : w.i = true) (hd : w.d = true) : Within w s (takeEntry b ret vector t) := by
  have pushed := (h.pushWord ret hsp).push ((Machine.pushWord ret t).p.toByte b) hsp
  have masked := pushed.setP (((FlagsWithin.refl _).setI true hi).setD false hd)
  exact (masked.afterReads (readPair_pairReads vector (vector + 1) _)).setPc _ hpc

/-! ### The access classes, with the flags of their operation as a hypothesis -/

theorem Within.accumulate (h : Within w s t) {f : Byte → Byte → Flags → Byte × Flags} (src : Src) (ha : w.a = true)
    (hf : ∀ a m p, FlagsWithin w p (f a m p).2) : Within w s (accumulate f src t) :=
  ((h.load src).setA _ ha).setP (hf _ _ _)

theorem Within.compareRegister (h : Within w s t) (reg : Byte) (src : Src) (hn : w.n = true) (hz : w.z = true)
    (hc : w.c = true) : Within w s (compareRegister reg src t) :=
  (h.load src).setP (setNZC_within _ _ _ hn hz hc)

theorem Within.rmw (h : Within w s t) {f : Byte → Flags → Byte × Flags} (m : Addr)
    (hf : ∀ v p, FlagsWithin w p (f v p).2) : Within w s (rmw m f t) := by
  have operand := (h.afterReads (resolve_afterReads m t)).afterReads (memRead_afterReads (resolve m t).1 _)
  exact (operand.setP (hf _ _)).memWrite _ _

theorem Within.modifyLoc (h : Within w s t) {f : Byte → Flags → Byte × Flags} (loc : Loc)
    (ha : loc = .acc → w.a = true) (hf : ∀ v p, FlagsWithin w p (f v p).2) : Within w s (modifyLoc loc f t) := by
  cases loc with
  | acc => exact (h.setA _ (ha rfl)).setP (hf _ _)
  | mem m => exact h.rmw m hf

end Within

end Sys2Proof.Machine
end

section
/-!
The frame of every instruction (spec R21-R30): `exec` stays inside the instruction's footprint.
-/

namespace Sys2Proof.Machine

/-- A meaning that answers a next state inside a footprint. -/
theorem Within.of_next {w : Footprint} {s t u : State} (hu : Within w s u)
    (h : (.next u : Host.Outcome State Fault Refusal) = .next t) : Within w s t := by
  cases h
  exact hu

/-- BRK, alone of the instructions, may take IRQ from the latch (R294, D9). -/
theorem softwareInterrupt_within (s : State) : Within (.ofInstr s.params .brk) s (softwareInterrupt s) := by
  unfold softwareInterrupt
  split
  next hclears => exact ((Within.refl s).setLatch _ (by simp [Footprint.ofInstr, hclears])).takeEntry _ _ _ rfl rfl rfl rfl
  next => exact (Within.refl s).takeEntry _ _ _ rfl rfl rfl rfl

theorem exec_within {i : Instr} {s t : State} (h : exec i s = .next t) : Within (.ofInstr s.params i) s t := by
  have start : Within (.ofInstr s.params i) s s := .refl s
  cases i with
  | lda src => exact (((start.load src).setA _ rfl).setNZ _ rfl rfl).of_next h
  | ldx src => exact (((start.load src).setX _ rfl).setNZ _ rfl rfl).of_next h
  | ldy src => exact (((start.load src).setY _ rfl).setNZ _ rfl rfl).of_next h
  | sta dst | stx dst | sty dst | stz dst => exact (start.store dst _).of_next h
  | txa | tya => exact ((start.setA _ rfl).setNZ _ rfl rfl).of_next h
  | tax | tsx | inx | dex => exact ((start.setX _ rfl).setNZ _ rfl rfl).of_next h
  | tay | iny | dey => exact ((start.setY _ rfl).setNZ _ rfl rfl).of_next h
  | txs => exact (start.setSp _ rfl).of_next h
  | pha | php | phx | phy => exact (start.push _ rfl).of_next h
  | pla => exact (((start.pop rfl).setA _ rfl).setNZ _ rfl rfl).of_next h
  | plx => exact (((start.pop rfl).setX _ rfl).setNZ _ rfl rfl).of_next h
  | ply => exact (((start.pop rfl).setY _ rfl).setNZ _ rfl rfl).of_next h
  | plp => exact ((start.pop rfl).restoreP _ rfl rfl rfl rfl rfl rfl).of_next h
  | adc src => exact (start.accumulate src rfl fun a m f => adcResult_within _ a m f rfl rfl rfl rfl).of_next h
  | sbc src => exact (start.accumulate src rfl fun a m f => sbcResult_within _ a m f rfl rfl rfl rfl).of_next h
  | and src | ora src | eor src =>
    exact (start.accumulate src rfl fun _ _ f => (FlagsWithin.refl f).setNZ _ rfl rfl).of_next h
  | bit src =>
    cases src with
    | imm v => exact ((start.load (.imm v)).setP (testZ_within _ _ _ rfl)).of_next h
    | mem m => exact ((start.load (.mem m)).setP (bitFlags_within _ _ _ rfl rfl rfl)).of_next h
  | cmp src | cpx src | cpy src => exact (start.compareRegister _ src rfl rfl rfl).of_next h
  | asl loc | lsr loc | rol loc | ror loc =>
    exact (start.modifyLoc loc (by rintro rfl; rfl) fun _ f => setNZC_within _ _ f rfl rfl rfl).of_next h
  | inc loc | dec loc =>
    exact (start.modifyLoc loc (by rintro rfl; rfl) fun _ f => (FlagsWithin.refl f).setNZ _ rfl rfl).of_next h
  | tsb loc | trb loc => exact (start.rmw loc fun v f => testZ_within s.a v f rfl).of_next h
  | bpl d | bmi d | bvc d | bvs d | bcc d | bcs d | bne d | beq d | bra d => exact (start.branchIf _ d rfl).of_next h
  | jmp target => exact ((start.afterReads (jumpTarget_afterReads target s)).setPc _ rfl).of_next h
  | jsr target => exact ((start.pushWord _ rfl).setPc target rfl).of_next h
  | rts => exact ((start.popWord rfl).setPc _ rfl).of_next h
  | rti =>
    have restored := (start.pop rfl).restoreP (pop s).1 rfl rfl rfl rfl rfl rfl
    exact ((restored.popWord rfl).setPc _ rfl).of_next h
  | brk => exact (softwareInterrupt_within s).of_next h
  | clc | sec => exact (start.setP ((FlagsWithin.refl s.p).setC _ rfl)).of_next h
  | cli | sei => exact (start.setP ((FlagsWithin.refl s.p).setI _ rfl)).of_next h
  | clv => exact (start.setP ((FlagsWithin.refl s.p).setV _ rfl)).of_next h
  | cld | sed => exact (start.setP ((FlagsWithin.refl s.p).setD _ rfl)).of_next h
  | nop | nopUndefined _ | wai | stp => exact start.of_next h
  | rmb0 zz | rmb1 zz | rmb2 zz | rmb3 zz | rmb4 zz | rmb5 zz | rmb6 zz | rmb7 zz
  | smb0 zz | smb1 zz | smb2 zz | smb3 zz | smb4 zz | smb5 zz | smb6 zz | smb7 zz =>
    exact (start.rmw (.zp zz) fun _ f => .refl f).of_next h
  | bbr0 zz d | bbr1 zz d | bbr2 zz d | bbr3 zz d | bbr4 zz d | bbr5 zz d | bbr6 zz d | bbr7 zz d
  | bbs0 zz d | bbs1 zz d | bbs2 zz d | bbs3 zz d | bbs4 zz d | bbs5 zz d | bbs6 zz d | bbs7 zz d =>
    exact (start.branchOnBit _ _ zz d rfl).of_next h

/-- Only BRK under BRK_CLEARS_IRQ has the latch in its footprint. -/
theorem Footprint.ofInstr_latch_eq_false {p : Params} {i : Instr} (h : i ≠ .brk ∨ p.brkClearsIrq = false) :
    (Footprint.ofInstr p i).latch = false := by
  obtain hi | hp := h
  · simp [ofInstr, hi]
  · simp [ofInstr, hp]

/-- Settles O59, from the footprint of the instruction. -/
theorem onlyTheListedInstructionsWrite : Obligations.OnlyTheListedInstructionsWrite := by
  intro i s t h
  have frame := exec_within h
  exact ⟨frame.a, frame.x, frame.y, frame.sp, frame.pc, frame.p.n, frame.p.v, frame.p.d, frame.p.i, frame.p.z, frame.p.c,
    frame.halted, frame.params, frame.windows, frame.clockAnswers, frame.returned,
    fun hl => frame.latch (Footprint.ofInstr_latch_eq_false hl)⟩

end Sys2Proof.Machine
end

section
/-!
The frame of a step (spec R29, R330, R425): the halt flag, the parameters and the device windows.
-/

namespace Sys2Proof.Machine

/-! ## What a step can do -/

theorem step_next_iff {s t : State} :
    step s = .next t ↔ ∃ u, unitOfWork (beginStep s) = .next u ∧ t = clockBus u := by
  unfold step
  cases unitOfWork (beginStep s) <;> simp [eq_comm]

/-- Phase 1 of R110 is an interrupt entry, nothing when halted, or one instruction. -/
theorem unitOfWork_cases {s t : State} (h : unitOfWork s = .next t) :
    (∃ src, s.serviceable = some src ∧ t = enterInterrupt src s)
      ∨ (s.serviceable = none ∧ s.halted = true ∧ t = s)
      ∨ (s.serviceable = none ∧ s.halted = false ∧ executeOne s = .next t) := by
  unfold unitOfWork at h
  split at h
  next src hsrc => exact .inl ⟨src, hsrc, by cases h; rfl⟩
  next hnone =>
    split at h
    next hhalt => exact .inr (.inl ⟨hnone, hhalt, by cases h; rfl⟩)
    next hrun => exact .inr (.inr ⟨hnone, by simpa using hrun, h⟩)

/-! ## The fetch writes PC alone -/

section fetch

variable {w : Footprint} {s t : State}

theorem Within.fetch8 (h : Within w s t) (hpc : w.pc = true) : Within w s (fetch8 t).2 :=
  (h.afterReads (memRead_afterReads t.pc t)).setPc _ hpc

theorem Within.fetchOperands (h : Within w s t) (sh : Shape) (hpc : w.pc = true) : Within w s (fetchOperands sh t).2 := by
  cases sh with
  | bare _ => exact h
  | byte _ => exact h.fetch8 hpc
  | word _ | zpRel _ => exact (h.fetch8 hpc).fetch8 hpc

theorem Within.fetchInstr (h : Within w s t) (hpc : w.pc = true) : Within w s (fetchInstr t).2 := by
  simp only [Machine.fetchInstr]
  split
  next => exact h.fetch8 hpc
  next => exact (h.fetch8 hpc).fetchOperands _ hpc

end fetch

/-! ## What no step changes -/

/-- The halt flag, the parameters and the device windows are the same. -/
def SameSetup (s t : State) : Prop := t.halted = s.halted ∧ t.params = s.params ∧ t.windows = s.windows

theorem SameSetup.refl (s : State) : SameSetup s s := ⟨rfl, rfl, rfl⟩

theorem SameSetup.trans {s t u : State} (h : SameSetup s t) (h' : SameSetup t u) : SameSetup s u := by
  obtain ⟨hhalted, hparams, hwindows⟩ := h
  obtain ⟨hhalted', hparams', hwindows'⟩ := h'
  exact ⟨hhalted'.trans hhalted, hparams'.trans hparams, hwindows'.trans hwindows⟩

theorem Within.sameSetup {w : Footprint} {s t : State} (h : Within w s t) : SameSetup s t :=
  ⟨h.halted, h.params, h.windows⟩

theorem enterInterrupt_sameSetup (src : Source) (s : State) : SameSetup s (enterInterrupt src s) := by
  simp [SameSetup, enterInterrupt]

theorem clockBus_sameSetup (s : State) : SameSetup s (clockBus s) := by
  simp [SameSetup]

/-- What the fetch may write. -/
def Footprint.pcOnly : Footprint where
  a     := false
  x     := false
  y     := false
  sp    := false
  pc    := true
  n     := false
  v     := false
  d     := false
  i     := false
  z     := false
  c     := false
  latch := false

theorem executeOne_sameSetup {s t : State} (h : executeOne s = .next t) : SameSetup s t := by
  have fetched : Within .pcOnly s (fetchInstr s).2 := (Within.refl s).fetchInstr rfl
  exact fetched.sameSetup.trans (exec_within h).sameSetup

theorem unitOfWork_sameSetup {s t : State} (h : unitOfWork s = .next t) : SameSetup s t := by
  obtain ⟨src, -, rfl⟩ | ⟨-, -, rfl⟩ | ⟨-, -, hexec⟩ := unitOfWork_cases h
  · exact enterInterrupt_sameSetup src s
  · exact .refl t
  · exact executeOne_sameSetup hexec

/-- Settles O22, phase by phase of the step. -/
theorem stepKeepsHaltAndParameters : Obligations.StepKeepsHaltAndParameters := by
  intro s t h
  obtain ⟨u, hu, rfl⟩ := step_next_iff.1 h
  have begun : SameSetup s (beginStep s) := .refl s
  exact (begun.trans (unitOfWork_sameSetup hu)).trans (clockBus_sameSetup u)

end Sys2Proof.Machine
end

section
/-!
The bytes of memory (spec R60, R62): a read of RAM after a write, and that memory changes by recorded writes alone.
-/

namespace Sys2Proof.Machine

/-- Settles O27, from what a write to the bus does to every byte of memory. -/
theorem readAfterWrite : Obligations.ReadAfterWrite := by
  intro s a b v hs ha hb
  obtain ⟨-, hother, hsame⟩ := memWrite_afterWrite a v hs
  have hb' : (memWrite a v s).isRam b := (memWrite_isDevice a v s b).trans hb
  rw [memRead_fst, memRead_fst, busValue_ram hb', busValue_ram hb]
  split
  next heq => rw [heq, hsame, if_neg (Bool.eq_false_iff.1 ha)]
  next hne => exact hother b.toNat fun h => hne (BitVec.eq_of_toNat_eq h)

/-! ## Recorded writes -/

/-- From `s` to `t` memory changes only by writes that the record of accesses gains, and not at all unless `stores`. -/
structure RecordsWrites (stores : Bool) (s t : State) : Prop where
  mem_eq   : stores = false → t.mem = s.mem
  recorded : ∃ l : List BusAccess, t.accesses = s.accesses ++ l
    ∧ ∀ a : Nat, t.mem.read a ≠ s.mem.read a → ∃ x ∈ l, x.writesTo a = true

section RecordsWrites

variable {st : Bool} {s t u : State}

theorem RecordsWrites.refl (s : State) : RecordsWrites st s s :=
  ⟨fun _ => rfl, [], by simp, fun _ h => absurd rfl h⟩

theorem RecordsWrites.trans (h : RecordsWrites st s t) (h' : RecordsWrites st t u) : RecordsWrites st s u := by
  obtain ⟨hmem, l, hl, hw⟩ := h
  obtain ⟨hmem', l', hl', hw'⟩ := h'
  refine ⟨fun hst => (hmem' hst).trans (hmem hst), l ++ l', by rw [hl', hl, List.append_assoc], fun a ha => ?_⟩
  by_cases hu : u.mem.read a = t.mem.read a
  · obtain ⟨x, hx, hxa⟩ := hw a (hu ▸ ha)
    exact ⟨x, List.mem_append_left l' hx, hxa⟩
  · obtain ⟨x, hx, hxa⟩ := hw' a hu
    exact ⟨x, List.mem_append_right l hx, hxa⟩

/-- What leaves the memory and the record alone, such as an update of a register, adds nothing. -/
theorem RecordsWrites.sameBus (h : RecordsWrites st s t) (hmem : u.mem = t.mem) (hacc : u.accesses = t.accesses) :
    RecordsWrites st s u := by
  obtain ⟨hkeep, l, hl, hw⟩ := h
  exact ⟨fun hst => hmem.trans (hkeep hst), l, hacc.trans hl, hmem ▸ hw⟩

theorem RecordsWrites.setP (h : RecordsWrites st s t) (f : Flags) : RecordsWrites st s (t.setP f) := h.sameBus rfl rfl

theorem RecordsWrites.setPc (h : RecordsWrites st s t) (w : Word) : RecordsWrites st s (t.setPc w) := h.sameBus rfl rfl

theorem RecordsWrites.afterReads (h : RecordsWrites st s t) {l : List BusAccess} (hr : AfterReads l t u) :
    RecordsWrites st s u :=
  h.trans ⟨fun _ => hr.mem_eq, l, hr.accesses_eq, fun a ha => absurd (congrArg (·.read a) hr.mem_eq) ha⟩

/-- A write leaves every other byte alone, whatever the form of the memory list. -/
theorem memWrite_read_ne {a : Word} {b : Nat} (v : Byte) (s : State) (h : b ≠ a.toNat) :
    (memWrite a v s).mem.read b = s.mem.read b := by
  simp only [memWrite, busWrite, tick_mem]
  split
  next => rfl
  next => exact Memory.read_write_ne v h

theorem RecordsWrites.memWrite (h : RecordsWrites st s t) (a : Word) (v : Byte) (hst : st = true) :
    RecordsWrites st s (memWrite a v t) := by
  refine h.trans ⟨by simp [hst], [.write a v], memWrite_accesses a v t, fun b hb => ?_⟩
  have hba : b = a.toNat := by_contra fun hne => hb (memWrite_read_ne v t hne)
  exact ⟨.write a v, by simp, by simp [BusAccess.writesTo, hba]⟩

/-! ### Stack, addressing modes, branches -/

theorem RecordsWrites.push (h : RecordsWrites st s t) (v : Byte) (hst : st = true) : RecordsWrites st s (push v t) :=
  (h.memWrite (stackAddr t.sp) v hst).sameBus rfl rfl

theorem RecordsWrites.pushWord (h : RecordsWrites st s t) (v : Word) (hst : st = true) :
    RecordsWrites st s (pushWord v t) :=
  (h.push (highByte v) hst).push (lowByte v) hst

theorem RecordsWrites.pop (h : RecordsWrites st s t) : RecordsWrites st s (pop t).2 :=
  (h.sameBus (u := t.setSp (t.sp + 1)) rfl rfl).afterReads (memRead_afterReads _ _)

theorem RecordsWrites.popWord (h : RecordsWrites st s t) : RecordsWrites st s (popWord t).2 := h.pop.pop

theorem RecordsWrites.load (h : RecordsWrites st s t) (src : Src) : RecordsWrites st s (load src t).2 :=
  h.afterReads (load_afterReads src t)

theorem RecordsWrites.store (h : RecordsWrites st s t) (m : Addr) (v : Byte) (hst : st = true) :
    RecordsWrites st s (store m v t) :=
  (h.afterReads (resolve_afterReads m t)).memWrite (resolve m t).1 v hst

theorem RecordsWrites.branchIf (h : RecordsWrites st s t) (cond : Bool) (d : Byte) :
    RecordsWrites st s (branchIf cond d t) := by
  cases cond with
  | false => exact h
  | true => exact h.setPc _

theorem RecordsWrites.branchOnBit (h : RecordsWrites st s t) (n : Nat) (want : Bool) (zz d : Byte) :
    RecordsWrites st s (branchOnBit n want zz d t) :=
  (h.afterReads (memRead_afterReads (zeroPageAddr zz) t)).branchIf _ d

/-- The three pushes of an entry and the reads of its vector (R294, R406). -/
theorem RecordsWrites.takeEntry (h : RecordsWrites st s t) (b : Bool) (ret vector : Word) (hst : st = true) :
    RecordsWrites st s (takeEntry b ret vector t) := by
  have pushed := (h.pushWord ret hst).push ((Machine.pushWord ret t).p.toByte b) hst
  exact ((pushed.setP _).afterReads (readPair_pairReads vector (vector + 1) _)).setPc _

/-- BRK may also clear IRQ from the latch first, which is no access (R294, D9). -/
theorem RecordsWrites.softwareInterrupt (h : RecordsWrites st s t) (hst : st = true) :
    RecordsWrites st s (softwareInterrupt t) := by
  refine RecordsWrites.takeEntry ?_ _ _ _ hst
  split
  next => exact h.sameBus rfl rfl
  next => exact h

/-! ### The access classes -/

theorem RecordsWrites.rmw (h : RecordsWrites st s t) (m : Addr) (f : Byte → Flags → Byte × Flags) (hst : st = true) :
    RecordsWrites st s (rmw m f t) :=
  ((h.load (.mem m)).setP _).memWrite _ _ hst

/-- The accumulator form makes no access (R254). -/
theorem RecordsWrites.modifyLoc (h : RecordsWrites st s t) (loc : Loc) (f : Byte → Flags → Byte × Flags)
    (hst : ∀ m, loc = .mem m → st = true) : RecordsWrites st s (modifyLoc loc f t) := by
  cases loc with
  | acc => exact h.sameBus rfl rfl
  | mem m => exact h.rmw m f (hst m rfl)

/-- A meaning that answers a next state by recorded writes. -/
theorem RecordsWrites.of_next (h : (.next u : Host.Outcome State Fault Refusal) = .next t)
    (hu : RecordsWrites st s u) : RecordsWrites st s t := by
  cases h
  exact hu

end RecordsWrites

theorem exec_recordsWrites {i : Instr} {s t : State} (h : exec i s = .next t) :
    RecordsWrites (storesToMemory i) s t := by
  have start : RecordsWrites (storesToMemory i) s s := .refl s
  cases i with
  | lda src | ldx src | ldy src | adc src | sbc src | and src | ora src | eor src | cmp src | cpx src | cpy src =>
    exact .of_next h ((start.load src).sameBus rfl rfl)
  | bit src =>
    cases src with
    | imm _ => exact .of_next h (start.sameBus rfl rfl)
    | mem m => exact .of_next h ((start.load (.mem m)).sameBus rfl rfl)
  | sta dst | stx dst | sty dst | stz dst => exact .of_next h (start.store dst _ rfl)
  | tax | tay | tsx | txa | txs | tya | inx | dex | iny | dey | clc | sec | cli | sei | clv | cld | sed
  | nop | nopUndefined _ | wai | stp => exact .of_next h (start.sameBus rfl rfl)
  | pha | php | phx | phy => exact .of_next h (start.push _ rfl)
  | pla | plp | plx | ply => exact .of_next h (start.pop.sameBus rfl rfl)
  | asl loc | lsr loc | rol loc | ror loc | inc loc | dec loc =>
    exact .of_next h (start.modifyLoc loc _ (by rintro m rfl; rfl))
  | tsb loc | trb loc => exact .of_next h (start.rmw loc _ rfl)
  | bpl d | bmi d | bvc d | bvs d | bcc d | bcs d | bne d | beq d | bra d =>
    exact .of_next h (start.branchIf _ d)
  | jmp target => exact .of_next h ((start.afterReads (jumpTarget_afterReads target s)).setPc _)
  | jsr target => exact .of_next h ((start.pushWord _ rfl).setPc _)
  | rts => exact .of_next h (start.popWord.setPc _)
  | rti => exact .of_next h ((start.pop.setP _).popWord.setPc _)
  | brk => exact .of_next h (start.softwareInterrupt rfl)
  | rmb0 zz | rmb1 zz | rmb2 zz | rmb3 zz | rmb4 zz | rmb5 zz | rmb6 zz | rmb7 zz
  | smb0 zz | smb1 zz | smb2 zz | smb3 zz | smb4 zz | smb5 zz | smb6 zz | smb7 zz =>
    exact .of_next h (start.rmw (.zp zz) _ rfl)
  | bbr0 zz d | bbr1 zz d | bbr2 zz d | bbr3 zz d | bbr4 zz d | bbr5 zz d | bbr6 zz d | bbr7 zz d
  | bbs0 zz d | bbs1 zz d | bbs2 zz d | bbs3 zz d | bbs4 zz d | bbs5 zz d | bbs6 zz d | bbs7 zz d =>
    exact .of_next h (start.branchOnBit _ _ zz d)

/-- Settles O60, from the accesses of every instruction's meaning. -/
theorem memoryChangesAreRecorded : Obligations.MemoryChangesAreRecorded := by
  intro i s t h
  obtain ⟨hmem, hrecorded⟩ := exec_recordsWrites h
  exact ⟨hmem, hrecorded⟩

end Sys2Proof.Machine
end

section
/-!
The opcode map and the tables by mnemonic agree (spec R81-R90): an opcode's shape makes an instruction from operand
bytes exactly when the instruction has that opcode and those operand bytes.
-/

namespace Sys2Proof

open Sys2Proof.Machine (joinBytes lowByte highByte)

/-- The shape of an opcode, given `used` as its operand bytes, makes the instruction `i` (R81, R83, R84). -/
inductive Shape.Reads : Shape → List Byte → Instr → Prop
  | bare (i : Instr) : Reads (.bare i) [] i
  | byte (f : Byte → Instr) (b : Byte) : Reads (.byte f) [b] (f b)
  | word (f : Word → Instr) (w : Word) : Reads (.word f) [lowByte w, highByte w] (f w)
  | zpRel (f : Byte → Byte → Instr) (z d : Byte) : Reads (.zpRel f) [z, d] (f z d)

/-- Two bytes that are the halves of a word, as the decoder joins them. -/
theorem Shape.Reads.joined (f : Word → Instr) (lo hi : Byte) : (Shape.word f).Reads [lo, hi] (f (joinBytes hi lo)) := by
  simpa using Shape.Reads.word f (joinBytes hi lo)

/-- Two bytes are enough operands for every shape. -/
theorem Shape.exists_reads (sh : Shape) (b1 b2 : Byte) : ∃ used rest i, sh.Reads used i ∧ used ++ rest = [b1, b2] := by
  cases sh with
  | bare i => exact ⟨[], [b1, b2], i, .bare i, rfl⟩
  | byte f => exact ⟨[b1], [b2], f b1, .byte f b1, rfl⟩
  | word f => exact ⟨[b1, b2], [], f (joinBytes b2 b1), .joined f b1 b2, rfl⟩
  | zpRel f => exact ⟨[b1, b2], [], f b1 b2, .zpRel f b1 b2, rfl⟩

/-! ## The decoder in terms of shapes -/

theorem decode_of_reads {op : Byte} {used : List Byte} {i : Instr} (h : (decodeOpcode op).Reads used i)
    (rest : List Byte) : decode (op :: used ++ rest) = .ok (i, rest) := by
  generalize hshape : decodeOpcode op = shape at h
  cases h <;> simp [decode, hshape]

theorem reads_of_decode {bytes rest : List Byte} {i : Instr} (h : decode bytes = .ok (i, rest)) :
    ∃ op used, (decodeOpcode op).Reads used i ∧ op :: used ++ rest = bytes := by
  cases bytes with
  | nil => cases h
  | cons op tail =>
    simp only [decode] at h
    split at h
    next hshape => cases h; exact ⟨op, [], hshape ▸ .bare i, rfl⟩
    next f b _ hshape => cases h; exact ⟨op, [b], hshape ▸ .byte f b, rfl⟩
    next f lo hi _ hshape => cases h; exact ⟨op, [lo, hi], hshape ▸ .joined f lo hi, rfl⟩
    next f z d _ hshape => cases h; exact ⟨op, [z, d], hshape ▸ .zpRel f z d, rfl⟩
    all_goals cases h

/-! ## From the opcode map to the tables by mnemonic -/

/-- The 256 entries of the opcode map, one case each (R86). -/
theorem opcodeMap_entry (k : Fin 256) : ∀ used i, (decodeOpcode (.ofFin k)).Reads used i →
    i.opcode = some (.ofFin k) ∧ i.operandBytes = used := by
  fin_cases k
  all_goals
    intro used i h
    cases h
    exact ⟨rfl, rfl⟩

/-! ## From the tables by mnemonic to the opcode map -/

theorem decodeOpcode_undefined {op : Byte} (h : op ∈ undefinedOpcodes) :
    decodeOpcode op = .bare (.nopUndefined op) := by
  fin_cases h <;> rfl

/-- The entry of the opcode map for an instruction's opcode makes that instruction. A mode that the mnemonic lacks has
no opcode (R87, R89), so `cases h` leaves nothing of its case. -/
theorem reads_of_opcode {i : Instr} {op : Byte} (h : i.opcode = some op) :
    (decodeOpcode op).Reads i.operandBytes i := by
  cases i with
  | lda o | ldx o | ldy o | adc o | sbc o | and o | ora o | eor o | bit o | cmp o | cpx o | cpy o =>
    cases o with
    | imm v => cases h; exact .byte _ v
    | mem m =>
      cases m with
      | zp z | zpX z | zpY z | indX z | indY z | ind z => cases h <;> exact .byte _ z
      | abs w | absX w | absY w => cases h <;> exact .word _ w
  | asl l | lsr l | rol l | ror l | inc l | dec l =>
    cases l with
    | acc => cases h; exact .bare _
    | mem m =>
      cases m with
      | zp z | zpX z | zpY z | indX z | indY z | ind z => cases h <;> exact .byte _ z
      | abs w | absX w | absY w => cases h <;> exact .word _ w
  | sta m | stx m | sty m | stz m | tsb m | trb m =>
    cases m with
    | zp z | zpX z | zpY z | indX z | indY z | ind z => cases h <;> exact .byte _ z
    | abs w | absX w | absY w => cases h <;> exact .word _ w
  | jmp t =>
    cases t with
    | abs w | ind w | indX w => cases h; exact .word _ w
  | jsr w => cases h; exact .word _ w
  | nopUndefined undef =>
    obtain ⟨hmem, rfl⟩ : undef ∈ undefinedOpcodes ∧ undef = op := by simpa [Instr.opcode] using h
    rw [decodeOpcode_undefined hmem]
    exact .bare _
  | bpl b | bmi b | bvc b | bvs b | bcc b | bcs b | bne b | beq b | bra b
  | rmb0 b | rmb1 b | rmb2 b | rmb3 b | rmb4 b | rmb5 b | rmb6 b | rmb7 b
  | smb0 b | smb1 b | smb2 b | smb3 b | smb4 b | smb5 b | smb6 b | smb7 b => cases h; exact .byte _ b
  | bbr0 z d | bbr1 z d | bbr2 z d | bbr3 z d | bbr4 z d | bbr5 z d | bbr6 z d | bbr7 z d
  | bbs0 z d | bbs1 z d | bbs2 z d | bbs3 z d | bbs4 z d | bbs5 z d | bbs6 z d | bbs7 z d => cases h; exact .zpRel _ z d
  | tax | tay | tsx | txa | txs | tya | pha | php | pla | plp | phx | phy | plx | ply | inx | dex | iny | dey
  | rts | rti | brk | clc | sec | cli | sei | clv | cld | sed | nop | wai | stp => cases h; exact .bare _

theorem decodeOpcode_reads_iff {op : Byte} {used : List Byte} {i : Instr} :
    (decodeOpcode op).Reads used i ↔ i.opcode = some op ∧ i.operandBytes = used := by
  refine ⟨opcodeMap_entry op.toFin used i, ?_⟩
  rintro ⟨hop, rfl⟩
  exact reads_of_opcode hop

end Sys2Proof
end

section
/-!
Encoding and decoding undo each other (spec R81-R90, R113), and the well-formed instructions are those with an
encoding.
-/

namespace Sys2Proof

/-- Well-formedness lists the modes of each mnemonic that the tables give an opcode (R87, R89, R90). -/
theorem opcode_isSome (i : Instr) : i.opcode.isSome = i.wellFormed := by
  cases i with
  | lda o | ldx o | ldy o | adc o | sbc o | and o | ora o | eor o | bit o | cmp o | cpx o | cpy o =>
    cases o with
    | imm _ => rfl
    | mem m => cases m <;> rfl
  | asl l | lsr l | rol l | ror l | inc l | dec l =>
    cases l with
    | acc => rfl
    | mem m => cases m <;> rfl
  | sta m | stx m | sty m | stz m | tsb m | trb m => cases m <;> rfl
  | jmp t => cases t <;> rfl
  | nopUndefined op => by_cases h : op ∈ undefinedOpcodes <;> simp [Instr.opcode, Instr.wellFormed, h]
  | _ => rfl

theorem encode_isSome (i : Instr) : (encode i).isSome = i.wellFormed := by
  rw [encode, Option.isSome_map, opcode_isSome]

theorem encode_eq_some_iff {i : Instr} {bytes : List Byte} :
    encode i = some bytes ↔ ∃ op, i.opcode = some op ∧ op :: i.operandBytes = bytes := Option.map_eq_some_iff

theorem decode_eq_ok_iff {bytes rest : List Byte} {i : Instr} :
    decode bytes = .ok (i, rest) ↔ ∃ used, encode i = some used ∧ used ++ rest = bytes := by
  constructor
  · intro h
    obtain ⟨op, operands, hreads, rfl⟩ := reads_of_decode h
    exact ⟨op :: operands, encode_eq_some_iff.mpr ⟨op, by simpa using decodeOpcode_reads_iff.mp hreads⟩, rfl⟩
  · rintro ⟨used, henc, rfl⟩
    obtain ⟨op, hop, rfl⟩ := encode_eq_some_iff.mp henc
    exact decode_of_reads (decodeOpcode_reads_iff.mpr ⟨hop, rfl⟩) rest

/-- Settles O3, from the equivalence of decoding with encoding. -/
theorem decodeInvertsEncode : Obligations.DecodeInvertsEncode := fun i =>
  ⟨by rw [encode_isSome], fun bytes _ henc => decode_eq_ok_iff.mpr ⟨bytes, henc, rfl⟩⟩

/-- Settles O4, from the same equivalence. -/
theorem encodeInvertsDecode : Obligations.EncodeInvertsDecode := fun _ _ _ => decode_eq_ok_iff.mp

/-- Settles O2: two bytes are enough operands for the shape of every opcode. -/
theorem everyOpcodeByteDecodes : Obligations.EveryOpcodeByteDecodes := by
  intro op b1 b2
  obtain ⟨used, rest, i, hreads, hbytes⟩ := (decodeOpcode op).exists_reads b1 b2
  obtain ⟨hop, hused⟩ := decodeOpcode_reads_iff.mp hreads
  have hlength : used.length + rest.length = 2 := by simpa using congrArg List.length hbytes
  refine ⟨i, rest, ?_, by rw [← opcode_isSome, hop]; rfl, hop, by rw [Instr.length, hused]; omega⟩
  rw [← hbytes]
  exact decode_of_reads hreads rest

/-- Settles O1: each word is the encoding of its instruction. -/
theorem specWordsDecode : Obligations.SpecWordsDecode :=
  ⟨rfl, rfl, rfl, rfl, rfl, rfl, rfl, rfl, rfl, rfl⟩

end Sys2Proof
end

section
/-!
The two phases of a step (spec R110, R111, R118, R119, R121): which interrupt it enters, what it does when halted, that
it always answers a next state, and what its bus clock leaves.
-/

namespace Sys2Proof.Machine

/-! ## Phase 1 -/

/-- Settles O17, by the three tests of R111 in their order. -/
theorem serviceableInterrupts : Obligations.ServiceableInterrupts := by
  intro s
  unfold State.serviceable
  split
  next hnmi => simp [hnmi]
  next hnmi =>
    split
    next hirq => simp_all
    next hirq => simp_all

theorem unitOfWork_of_halted {s : State} (hnone : s.serviceable = none) (hhalt : s.halted = true) :
    unitOfWork s = .next s := by
  simp [unitOfWork, hnone, hhalt]

theorem unitOfWork_of_running {s : State} (hnone : s.serviceable = none) (hrun : s.halted = false) :
    unitOfWork s = executeOne s := by
  simp [unitOfWork, hnone, hrun]

/-- Settles O21: phase 1 leaves the state alone, and phase 2 reports its tick count. -/
theorem haltedStepDoesNothing : Obligations.HaltedStepDoesNothing := by
  intro s hhalt hnone
  exact ⟨step_next_iff.2 ⟨beginStep s, unitOfWork_of_halted hnone hhalt, rfl⟩, rfl, rfl⟩

/-! ## Every step answers a next state -/

/-- Every arm of the dispatch answers a next state; BIT alone chooses its answer by its operand (R336). -/
theorem exec_next (i : Instr) (s : State) : ∃ t, exec i s = .next t := by
  cases i with
  | bit src => cases src <;> exact ⟨_, rfl⟩
  | _ => exact ⟨_, rfl⟩

theorem unitOfWork_next (s : State) : ∃ t, unitOfWork s = .next t := by
  unfold unitOfWork
  split
  next src _ => exact ⟨enterInterrupt src s, rfl⟩
  next =>
    split
    next => exact ⟨s, rfl⟩
    next => exact exec_next _ _

/-- Settles O7, from the totality of phase 1. -/
theorem stepIsTotal : Obligations.StepIsTotal := by
  intro s
  obtain ⟨u, hu⟩ := unitOfWork_next (beginStep s)
  exact ⟨clockBus u, step_next_iff.2 ⟨u, hu, rfl⟩⟩

/-! ## Phase 2 -/

/-- The bus answers `clock` in phase 2 alone. -/
theorem unitOfWork_clockAnswers {s t : State} (h : unitOfWork s = .next t) : t.clockAnswers = s.clockAnswers := by
  obtain ⟨src, -, rfl⟩ | ⟨-, -, rfl⟩ | ⟨-, -, hexec⟩ := unitOfWork_cases h
  · simp [enterInterrupt]
  · rfl
  · have fetched : Within .pcOnly s (fetchInstr s).2 := (Within.refl s).fetchInstr rfl
    exact (exec_within hexec).clockAnswers.trans fetched.clockAnswers

/-- Settles O23: phase 2 merges the answer that the step began with. -/
theorem clockAnswerIsLatched : Obligations.ClockAnswerIsLatched := by
  intro s t h
  obtain ⟨u, hu, rfl⟩ := step_next_iff.1 h
  have answers : u.clockAnswers = s.clockAnswers := (unitOfWork_clockAnswers hu).trans (beginStep_clockAnswers s)
  have answer : u.clockAnswer = s.clockAnswer := by simp only [State.clockAnswer, answers]
  exact ⟨rfl, fun hnmi => by simp [clockBus, answer, hnmi], fun hirq => by simp [clockBus, answer, hirq],
    congrArg List.tail answers⟩

end Sys2Proof.Machine
end

section
/-!
Every access counts one tick (spec R13, R117): the operations add as many ticks to the counter as accesses to the
record, each instruction those of the table of R462.
-/

namespace Sys2Proof.Machine

/-- From `s` to `t` the record gains `n` accesses and the counter `n` ticks. -/
structure Counts (n : Nat) (s t : State) : Prop where
  accesses : t.accesses.length = s.accesses.length + n
  cycles   : t.cycles = s.cycles + BitVec.ofNat 32 n

section Counts

variable {n : Nat} {s t u : State}

theorem Counts.refl (s : State) : Counts 0 s s := ⟨rfl, by simp⟩

theorem Counts.trans {k : Nat} (h : Counts n s t) (h' : Counts k t u) : Counts (n + k) s u where
  accesses := by rw [h'.accesses, h.accesses, Nat.add_assoc]
  cycles := by rw [h'.cycles, h.cycles, BitVec.ofNat_add, BitVec.add_assoc]

/-- What leaves the record and the counter alone counts nothing. -/
theorem Counts.sameCount (h : Counts n s t) (hacc : u.accesses = t.accesses) (hcyc : u.cycles = t.cycles) :
    Counts n s u :=
  ⟨hacc ▸ h.accesses, hcyc ▸ h.cycles⟩

theorem Counts.setP (h : Counts n s t) (f : Flags) : Counts n s (t.setP f) := h.sameCount rfl rfl

theorem Counts.setPc (h : Counts n s t) (w : Word) : Counts n s (t.setPc w) := h.sameCount rfl rfl

theorem Counts.afterReads (h : Counts n s t) {l : List BusAccess} (hr : AfterReads l t u) :
    Counts (n + l.length) s u :=
  h.trans ⟨by rw [hr.accesses_eq, List.length_append], hr.cycles_eq⟩

theorem Counts.memWrite (h : Counts n s t) (a : Word) (v : Byte) : Counts (n + 1) s (memWrite a v t) :=
  h.trans ⟨by simp, rfl⟩

/-! ### Stack, addressing modes, branches -/

theorem Counts.push (h : Counts n s t) (v : Byte) : Counts (n + 1) s (push v t) :=
  (h.memWrite (stackAddr t.sp) v).sameCount rfl rfl

theorem Counts.pushWord (h : Counts n s t) (w : Word) : Counts (n + 2) s (pushWord w t) :=
  (h.push (highByte w)).push (lowByte w)

theorem Counts.pop (h : Counts n s t) : Counts (n + 1) s (pop t).2 :=
  (h.sameCount (u := t.setSp (t.sp + 1)) rfl rfl).afterReads (memRead_afterReads _ _)

theorem Counts.popWord (h : Counts n s t) : Counts (n + 2) s (popWord t).2 := h.pop.pop

theorem Counts.branchIf (h : Counts n s t) (cond : Bool) (d : Byte) : Counts n s (branchIf cond d t) :=
  h.sameCount (branchIf_accesses cond d t) (branchIf_cycles cond d t)

theorem Counts.branchOnBit (h : Counts n s t) (k : Nat) (want : Bool) (zz d : Byte) :
    Counts (n + 1) s (branchOnBit k want zz d t) :=
  (h.afterReads (memRead_afterReads (zeroPageAddr zz) t)).branchIf _ d

/-- An entry makes three pushes and two reads of its vector (R294, R406). -/
theorem Counts.takeEntry (h : Counts n s t) (b : Bool) (ret vector : Word) :
    Counts (n + 5) s (takeEntry b ret vector t) := by
  have pushed := (h.pushWord ret).push ((Machine.pushWord ret t).p.toByte b)
  exact ((pushed.setP _).afterReads (readPair_pairReads vector (vector + 1) _)).setPc _

/-- BRK may also clear IRQ from the latch first, which is no access (R294, D9). -/
theorem Counts.softwareInterrupt (h : Counts n s t) : Counts (n + 5) s (softwareInterrupt t) := by
  refine Counts.takeEntry ?_ _ _ _
  split
  next => exact h.sameCount rfl rfl
  next => exact h

/-! ### The access classes, after the fetch of the opcode and of the operand's bytes -/

theorem Counts.load {src : Src} (h : Counts (1 + src.operandBytes.length) s t) :
    Counts (srcTicks src) s (load src t).2 := by
  have operand := h.afterReads (load_afterReads src t)
  cases src with
  | imm _ => exact operand
  | mem m => cases m <;> exact operand

theorem Counts.jumpTarget {target : Target} (h : Counts (1 + target.operandBytes.length) s t) :
    Counts (targetTicks target) s (jumpTarget target t).2 := by
  have pointer := h.afterReads (jumpTarget_afterReads target t)
  cases target <;> exact pointer

theorem Counts.store {m : Addr} (h : Counts (1 + m.operandBytes.length) s t) (v : Byte) :
    Counts (addrTicks m) s (store m v t) := by
  have written := (h.afterReads (resolve_afterReads m t)).memWrite (resolve m t).1 v
  cases m <;> exact written

theorem Counts.rmw {m : Addr} (h : Counts (1 + m.operandBytes.length) s t) (f : Byte → Flags → Byte × Flags) :
    Counts (addrTicks m + 1) s (rmw m f t) := by
  have operand : Counts (addrTicks m) s (Machine.load (.mem m) t).2 := Counts.load (src := .mem m) h
  exact (operand.setP _).memWrite _ _

/-- The accumulator form makes no access (R254). -/
theorem Counts.modifyLoc {loc : Loc} (h : Counts (1 + loc.operandBytes.length) s t)
    (f : Byte → Flags → Byte × Flags) : Counts (locTicks loc) s (modifyLoc loc f t) := by
  cases loc with
  | acc => exact h.sameCount rfl rfl
  | mem m => exact Counts.rmw h f

/-- A meaning that answers a next state after `n` accesses. -/
theorem Counts.of_next (h : (.next u : Host.Outcome State Fault Refusal) = .next t) (hu : Counts n s u) :
    Counts n s t := by
  cases h
  exact hu

end Counts

/-- From the state `r` before the fetch on, an instruction makes the accesses of the table (R462). -/
theorem exec_counts {i : Instr} {r s t : State} (fetched : Counts i.length r s) (h : exec i s = .next t) :
    Counts (instrTicks i) r t := by
  cases i with
  | lda src | ldx src | ldy src | adc src | sbc src | and src | ora src | eor src | cmp src | cpx src | cpy src =>
    exact .of_next h ((Counts.load (src := src) fetched).sameCount rfl rfl)
  | bit src =>
    have operand : Counts (srcTicks src) r (load src s).2 := Counts.load fetched
    cases src with
    | imm _ | mem _ => exact .of_next h (operand.sameCount rfl rfl)
  | sta dst | stx dst | sty dst | stz dst => exact .of_next h (Counts.store fetched _)
  | tax | tay | tsx | txa | txs | tya | inx | dex | iny | dey | clc | sec | cli | sei | clv | cld | sed
  | nop | nopUndefined _ | wai | stp => exact .of_next h (fetched.sameCount rfl rfl)
  | pha | php | phx | phy => exact .of_next h (fetched.push _)
  | pla | plp | plx | ply => exact .of_next h (fetched.pop.sameCount rfl rfl)
  | asl loc | lsr loc | rol loc | ror loc | inc loc | dec loc => exact .of_next h (Counts.modifyLoc fetched _)
  | tsb loc | trb loc => exact .of_next h (Counts.rmw fetched _)
  | bpl d | bmi d | bvc d | bvs d | bcc d | bcs d | bne d | beq d | bra d => exact .of_next h (fetched.branchIf _ d)
  | jmp target => exact .of_next h ((Counts.jumpTarget fetched).setPc _)
  | jsr target => exact .of_next h ((fetched.pushWord _).setPc target)
  | rts => exact .of_next h (fetched.popWord.setPc _)
  | rti =>
    exact .of_next h ((fetched.pop.setP _).popWord.setPc _)
  | brk => exact .of_next h fetched.softwareInterrupt
  | rmb0 zz | rmb1 zz | rmb2 zz | rmb3 zz | rmb4 zz | rmb5 zz | rmb6 zz | rmb7 zz
  | smb0 zz | smb1 zz | smb2 zz | smb3 zz | smb4 zz | smb5 zz | smb6 zz | smb7 zz =>
    exact .of_next h (Counts.rmw (m := .zp zz) fetched _)
  | bbr0 zz d | bbr1 zz d | bbr2 zz d | bbr3 zz d | bbr4 zz d | bbr5 zz d | bbr6 zz d | bbr7 zz d
  | bbs0 zz d | bbs1 zz d | bbs2 zz d | bbs3 zz d | bbs4 zz d | bbs5 zz d | bbs6 zz d | bbs7 zz d =>
    exact .of_next h (fetched.branchOnBit _ _ zz d)

/-! ## Fetch and phase 1 -/

theorem fetch8_counts (s : State) : Counts 1 s (fetch8 s).2 :=
  ((Counts.refl s).afterReads (memRead_afterReads s.pc s)).setPc _

/-- The operand fetch reads as many bytes as the shape makes its instruction from (R84). -/
theorem fetchOperands_counts (sh : Shape) (s : State) :
    ∃ used, sh.Reads used (fetchOperands sh s).1 ∧ Counts used.length s (fetchOperands sh s).2 := by
  have two : Counts 2 s (fetch8 (fetch8 s).2).2 := (fetch8_counts s).trans (fetch8_counts _)
  cases sh with
  | bare i => exact ⟨[], .bare i, .refl s⟩
  | byte f => exact ⟨[_], .byte f _, fetch8_counts s⟩
  | word f => exact ⟨[_, _], .word f (fetch16 s).1, two⟩
  | zpRel f => exact ⟨[_, _], .zpRel f _ _, two⟩

/-- The fetch makes one access for each byte of the instruction (R82, R112). -/
theorem fetchInstr_counts (s : State) : Counts (fetchInstr s).1.length s (fetchInstr s).2 := by
  simp only [fetchInstr]
  split
  next => exact fetch8_counts s
  next =>
    obtain ⟨used, hreads, hcount⟩ := fetchOperands_counts (decodeOpcode (fetch8 s).1) (fetch8 s).2
    obtain ⟨-, hused⟩ := decodeOpcode_reads_iff.1 hreads
    rw [Instr.length, hused]
    exact (fetch8_counts s).trans hcount

theorem executeOne_counts {s t : State} (h : executeOne s = .next t) : Counts (instrTicks (fetchInstr s).1) s t :=
  exec_counts (fetchInstr_counts s) h

theorem enterInterrupt_counts (src : Source) (s : State) : Counts 5 s (enterInterrupt src s) := by
  have cleared : Counts 0 s (s.setLatch (s.latch.clear src)) := (Counts.refl s).sameCount rfl rfl
  exact cleared.takeEntry false s.pc src.vector

theorem unitOfWork_counts {s t : State} (h : unitOfWork s = .next t) : ∃ n, Counts n s t := by
  obtain ⟨src, -, rfl⟩ | ⟨-, -, rfl⟩ | ⟨-, -, hexec⟩ := unitOfWork_cases h
  · exact ⟨5, enterInterrupt_counts src s⟩
  · exact ⟨0, .refl t⟩
  · exact ⟨_, executeOne_counts hexec⟩

/-- Settles O8: phase 1 counts its accesses from the empty record on, and phase 2 reports the count. -/
theorem stepReturnsItsAccessCount : Obligations.StepReturnsItsAccessCount := by
  intro s t h
  obtain ⟨u, hu, rfl⟩ := step_next_iff.1 h
  obtain ⟨n, hacc, hcyc⟩ := unitOfWork_counts hu
  have hlength : u.accesses.length = n := by simpa using hacc
  exact ⟨by rw [clockBus_returned, clockBus_accesses, hlength, hcyc, beginStep_cycles], rfl⟩

end Sys2Proof.Machine
end

section
/-!
The fetch from RAM (spec R84, R112): it reads the instruction that the bytes at PC decode to, and a step runs it.
-/

namespace Sys2Proof.Machine

/-- `fetch8` (R12) at a PC in RAM. -/
theorem fetch8_of_isRam {s : State} (hram : s.isRam s.pc) : fetch8 s = (s.mem.read s.pc.toNat, { s with
    pc       := s.pc + 1
    cycles   := s.cycles + 1
    accesses := s.accesses ++ [.read s.pc (s.mem.read s.pc.toNat)] }) := by
  have hdevice : s.isDevice s.pc = false := hram
  simp [fetch8, memRead, busRead, tick, State.setPc, busValue_ram hram, hdevice]

/-- After `k` bytes, `fetch8` reads the next one. -/
theorem fetch8_afterFetch {s : State} (hram : codeIsRam s) {k : Nat} {b : Byte} (hb : (bytesAtPc s)[k]? = some b) :
    fetch8 (afterFetch k s) = (b, afterFetch (k + 1) s) := by
  obtain ⟨hram0, hram1, hram2⟩ := hram
  have hk : k < 3 := (List.getElem?_eq_some_iff.1 hb).1
  have hpc : s.isRam (s.pc + BitVec.ofNat 16 k) := by
    interval_cases k
    · simpa using hram0
    · exact hram1
    · exact hram2
  have fetched := fetch8_of_isRam (s := afterFetch k s) hpc
  interval_cases k <;> cases hb <;> simpa [afterFetch, BitVec.add_assoc] using fetched

/-- The operand fetch makes the instruction that the shape makes from the bytes after the opcode (R84). -/
theorem fetchOperands_afterFetch {s : State} (hram : codeIsRam s) {sh : Shape} {op : Byte} {used rest : List Byte}
    {i : Instr} (hreads : sh.Reads used i) (hbytes : op :: used ++ rest = bytesAtPc s) :
    fetchOperands sh (afterFetch 1 s) = (i, afterFetch (1 + used.length) s) := by
  have fetched {k : Nat} {b : Byte} (hb : (op :: used ++ rest)[k]? = some b) :
      fetch8 (afterFetch k s) = (b, afterFetch (k + 1) s) := fetch8_afterFetch hram (hbytes ▸ hb)
  cases hreads with
  | bare i => rfl
  | byte f b =>
    have first := fetched (k := 1) (b := b) rfl
    simp [fetchOperands, first]
  | word f w =>
    have first := fetched (k := 1) (b := lowByte w) rfl
    have second := fetched (k := 2) (b := highByte w) rfl
    simp [fetchOperands, fetch16, first, second]
  | zpRel f z d =>
    have first := fetched (k := 1) (b := z) rfl
    have second := fetched (k := 2) (b := d) rfl
    simp [fetchOperands, first, second]

/-- An opcode that is not switched off is fetched with its operand bytes (R112, R114). -/
theorem fetchInstr_of_decode {s : State} {i : Instr} {rest : List Byte} (hram : codeIsRam s)
    (hon : switchedOff s.params (s.mem.read s.pc.toNat) = false) (h : decode (bytesAtPc s) = .ok (i, rest)) :
    fetchInstr (beginStep s) = (i, afterFetch i.length s) := by
  obtain ⟨op, used, hreads, hbytes⟩ := reads_of_decode h
  obtain ⟨-, hused⟩ := decodeOpcode_reads_iff.1 hreads
  have hop : s.mem.read s.pc.toNat = op := (List.cons.inj hbytes).1.symm
  have begun : beginStep s = afterFetch 0 s := by simp [beginStep, afterFetch]
  have opcode : fetch8 (afterFetch 0 s) = (op, afterFetch 1 s) := fetch8_afterFetch hram (hbytes ▸ rfl)
  have honOp : switchedOff (afterFetch 1 s).params op = false := hop ▸ hon
  have operands := fetchOperands_afterFetch hram hreads hbytes
  simp only [fetchInstr, begun, opcode, honOp, Bool.false_eq_true, if_false, operands, Instr.length, hused]

theorem wellFormed_of_decode {bytes rest : List Byte} {i : Instr} (h : decode bytes = .ok (i, rest)) :
    i.wellFormed = true := by
  obtain ⟨used, henc, -⟩ := decode_eq_ok_iff.1 h
  rw [← encode_isSome, henc, Option.isSome_some]

/-- A step is phase 1, then the end of the step. -/
theorem step_eq_endStep (s : State) : step s = endStep (unitOfWork (beginStep s)) := by
  unfold step endStep
  cases unitOfWork (beginStep s) <;> rfl

/-- Settles O5: phase 1 is the instruction, and its fetch is that of the bytes at PC. -/
theorem stepRunsTheDecodedInstruction : Obligations.StepRunsTheDecodedInstruction := by
  intro s i rest hnone hrun hram hon h
  refine ⟨wellFormed_of_decode h, ?_⟩
  have work : unitOfWork (beginStep s) = executeOne (beginStep s) := unitOfWork_of_running hnone hrun
  rw [step_eq_endStep, work, executeOne, fetchInstr_of_decode hram hon h]

end Sys2Proof.Machine
end

section
/-!
The addressing modes (spec R131, R136-R145): the effective address in the spec's arithmetic, and the operand `load` reads
there.
-/

namespace Sys2Proof.Machine

/-! ## The sums of the modes -/

theorem zeroPageAddr_eq_ofNat (z : Byte) : zeroPageAddr z = BitVec.ofNat 16 z.toNat := by
  rw [← zeroPageAddr_toNat, BitVec.ofNat_toNat, BitVec.setWidth_eq]

/-- A zero-page sum wraps in page 0 (R137, R138). -/
theorem zeroPageAddr_add (z i : Byte) : zeroPageAddr (z + i) = BitVec.ofNat 16 ((z.toNat + i.toNat) % 256) := by
  rw [zeroPageAddr_eq_ofNat, BitVec.toNat_add]

/-- The sum of an address and an index register wraps in 16 bits (R140, R141, R144). -/
theorem add_zeroExtend16 (w : Word) (i : Byte) : w + zeroExtend16 i = BitVec.ofNat 16 (w.toNat + i.toNat) := by
  refine BitVec.eq_of_toNat_eq ?_
  rw [BitVec.toNat_add, zeroExtend16_toNat, BitVec.toNat_ofNat]

/-! ## A zero-page pointer in RAM -/

section pointer

variable {z : Byte} {s : State}

/-- The two reads of a pointer record the bytes of memory at `z` and `z + 1` (R53). -/
theorem pairReads_zeroPage (hlo : s.isRam (zeroPageAddr z)) (hhi : s.isRam (zeroPageAddr (z + 1))) :
    pairReads (zeroPageAddr z) (zeroPageAddr (z + 1)) s =
      [.read (zeroPageAddr z) (s.mem.read z.toNat), .read (zeroPageAddr (z + 1)) (s.mem.read (z + 1).toNat)] := by
  have hhi' : (memRead (zeroPageAddr z) s).2.isRam (zeroPageAddr (z + 1)) := hhi
  simp only [pairReads, memRead_fst, busValue_ram hlo, busValue_ram hhi', memRead_mem, zeroPageAddr_toNat]

theorem read16zp_fst (hlo : s.isRam (zeroPageAddr z)) (hhi : s.isRam (zeroPageAddr (z + 1))) :
    (read16zp z s).1 = pointerInRam s.mem z := by
  obtain ⟨lo, hi, -, hval, hloRam, hhiRam⟩ := readPair_afterReads (zeroPageAddr z) (zeroPageAddr (z + 1)) s
  rw [read16zp, hval, hloRam hlo, hhiRam hhi, zeroPageAddr_toNat, zeroPageAddr_toNat, pointerInRam]

end pointer

/-! ## The resolver and `load` -/

theorem resolve_fst {m : Addr} {s : State} (hram : pointerIsRam m s) : (resolve m s).1 = effectiveAddress m s := by
  have pointer {z : Byte} (hz : zeroPagePointer m s = some z) : (read16zp z s).1 = pointerInRam s.mem z :=
    read16zp_fst (hram z hz).1 (hram z hz).2
  cases m with
  | zp z => exact zeroPageAddr_eq_ofNat z
  | zpX z | zpY z => exact zeroPageAddr_add z _
  | abs _ => rfl
  | absX w | absY w => exact add_zeroExtend16 w _
  | indX _ | ind _ => exact pointer rfl
  | indY z =>
    calc (read16zp z s).1 + zeroExtend16 s.y
      _ = pointerInRam s.mem z + zeroExtend16 s.y := by rw [pointer rfl]
      _ = effectiveAddress (.indY z) s := add_zeroExtend16 _ _

/-- Settles O25: the sums are those of the table, and the pointer reads are reads of RAM. -/
theorem effectiveAddresses : Obligations.EffectiveAddresses := by
  intro m s hram
  refine ⟨resolve_fst hram, ?_⟩
  have reads := resolve_afterReads m s
  unfold pointerReads at reads
  cases hz : zeroPagePointer m s with
  | none => simpa only [hz] using reads
  | some z =>
    obtain ⟨hlo, hhi⟩ := hram z hz
    simpa only [hz, pairReads_zeroPage hlo hhi] using reads

/-- Settles O26: `load` is one `memRead` after the resolver's reads, and those leave memory alone. -/
theorem loadReturnsTheOperand : Obligations.LoadReturnsTheOperand := by
  refine ⟨fun _ _ => rfl, fun m s => ⟨_, rfl, memRead_afterReads _ _, ?_⟩⟩
  exact (resolve_afterReads m s).readsRam (memRead_readsRam _ _)

end Sys2Proof.Machine
end

section
/-!
Loads, stores and register transfers (spec R160-R171, R334): each is its bus operation or its copy, and the flags of the
byte that reaches a register.
-/

namespace Sys2Proof.Machine

/-! ## A byte put into a register, with N and Z from it (R12) -/

section setRegister

variable (s : State) (v : Byte)

theorem State.setNZ_setA : (s.setA v).setNZ v = { s with a := v, p := flagsNZ s.p v } := State.setNZ_eq _ v

theorem State.setNZ_setX : (s.setX v).setNZ v = { s with x := v, p := flagsNZ s.p v } := State.setNZ_eq _ v

theorem State.setNZ_setY : (s.setY v).setNZ v = { s with y := v, p := flagsNZ s.p v } := State.setNZ_eq _ v

end setRegister

/-! ## Loads -/

section load

variable (src : Src) (s : State)

theorem exec_lda : exec (.lda src) s =
    .next { (load src s).2 with a := (load src s).1, p := flagsNZ s.p (load src s).1 } :=
  congrArg Host.Outcome.next <| by rw [State.setNZ_setA, load_p]

theorem exec_ldx : exec (.ldx src) s =
    .next { (load src s).2 with x := (load src s).1, p := flagsNZ s.p (load src s).1 } :=
  congrArg Host.Outcome.next <| by rw [State.setNZ_setX, load_p]

theorem exec_ldy : exec (.ldy src) s =
    .next { (load src s).2 with y := (load src s).1, p := flagsNZ s.p (load src s).1 } :=
  congrArg Host.Outcome.next <| by rw [State.setNZ_setY, load_p]

end load

/-- Settles O29: `load` makes the reads of its mode and keeps P, so that N and Z are all a load adds to its register. -/
theorem loadsSetTheirRegister : Obligations.LoadsSetTheirRegister := by
  refine ⟨fun src s => ?_, fun src s => ?_, fun src s => ?_, fun _ _ => ⟨rfl, rfl, rfl⟩⟩
  · exact ⟨_, (load src s).2, exec_lda src s, load_afterReads src s, rfl⟩
  · exact ⟨_, (load src s).2, exec_ldx src s, load_afterReads src s, rfl⟩
  · exact ⟨_, (load src s).2, exec_ldy src s, load_afterReads src s, rfl⟩

/-! ## Stores -/

/-- Settles O30: each store is `store` of its byte, which makes the pointer reads and then the one write. -/
theorem storesWriteOneByte : Obligations.StoresWriteOneByte := by
  refine ⟨fun m s hs => ?_, fun m s hs => ?_, fun m s hs => ?_, fun m s hs => ?_, fun _ _ => ⟨rfl, rfl, rfl, rfl⟩⟩
  · exact ⟨store m s.a s, rfl, store_storesByte m s.a hs⟩
  · exact ⟨store m s.x s, rfl, store_storesByte m s.x hs⟩
  · exact ⟨store m s.y s, rfl, store_storesByte m s.y hs⟩
  · exact ⟨store m 0x00#8 s, rfl, store_storesByte m 0x00#8 hs⟩

/-! ## Transfers -/

/-- Settles O31: a transfer puts a register's byte into another, with N and Z from it; TXS writes SP alone. -/
theorem transfersCopyRegisters : Obligations.TransfersCopyRegisters := by
  intro s
  refine ⟨?tax, ?tay, ?tsx, ?txa, ?txs, ?tya, rfl⟩
  case tax => exact congrArg Host.Outcome.next (s.setNZ_setX s.a)
  case tay => exact congrArg Host.Outcome.next (s.setNZ_setY s.a)
  case tsx => exact congrArg Host.Outcome.next (s.setNZ_setX s.sp)
  case txa => exact congrArg Host.Outcome.next (s.setNZ_setA s.x)
  case txs => rfl
  case tya => exact congrArg Host.Outcome.next (s.setNZ_setA s.y)

end Sys2Proof.Machine
end

section
/-!
The stack (spec R190-R193, R332, R333): each push is `push` of its byte, each pull puts the byte of `pop` into its
register or into the six flags.
-/

namespace Sys2Proof.Machine

/-! ## Pushes -/

/-- Settles O32: each push is `push`, one write at `0x0100 | SP` with SP one lower. -/
theorem pushesWriteTheStack : Obligations.PushesWriteTheStack := by
  intro s hs
  refine ⟨?pha, ?php, ?phx, ?phy, stackAddr_toNat s.sp, rfl⟩
  case pha => exact ⟨push s.a s, rfl, push_afterWrite s.a hs⟩
  case php => exact ⟨push (s.p.toByte s.params.phpB) s, rfl, push_afterWrite _ hs⟩
  case phx => exact ⟨push s.x s, rfl, push_afterWrite s.x hs⟩
  case phy => exact ⟨push s.y s, rfl, push_afterWrite s.y hs⟩

/-! ## Pulls -/

/-- `pop` (R12) as one read of the state before it, and SP one higher. -/
theorem pop_eq_memRead (s : State) : pop s = (s.busValue (stackAddr (s.sp + 1)),
    { (memRead (stackAddr (s.sp + 1)) s).2 with sp := s.sp + 1 }) := rfl

section pull

variable (s : State)

theorem exec_pla : exec .pla s = .next { (pop s).2 with a := (pop s).1, p := flagsNZ s.p (pop s).1 } :=
  congrArg Host.Outcome.next <| by rw [State.setNZ_setA, pop_p]

theorem exec_plx : exec .plx s = .next { (pop s).2 with x := (pop s).1, p := flagsNZ s.p (pop s).1 } :=
  congrArg Host.Outcome.next <| by rw [State.setNZ_setX, pop_p]

theorem exec_ply : exec .ply s = .next { (pop s).2 with y := (pop s).1, p := flagsNZ s.p (pop s).1 } :=
  congrArg Host.Outcome.next <| by rw [State.setNZ_setY, pop_p]

theorem exec_plp : exec .plp s = .next { (pop s).2 with p := Flags.ofByte (pop s).1 } := rfl

end pull

/-- Settles O33: `pop` is one read at `0x0100 | SP + 1` and the new SP, and each pull adds its register or its flags. -/
theorem pullsReadTheStack : Obligations.PullsReadTheStack := by
  intro s
  have hread := memRead_afterReads (stackAddr (s.sp + 1)) s
  have hram := memRead_readsRam (stackAddr (s.sp + 1)) s
  refine ⟨?pla, ?plx, ?ply, ?plp, rfl⟩
  case pla => exact ⟨_, _, _, exec_pla s, hread, by rw [pop_eq_memRead], hram⟩
  case plx => exact ⟨_, _, _, exec_plx s, hread, by rw [pop_eq_memRead], hram⟩
  case ply => exact ⟨_, _, _, exec_ply s, hread, by rw [pop_eq_memRead], hram⟩
  case plp => exact ⟨_, _, _, exec_plp s, hread, by rw [pop_eq_memRead, Flags.ofByte], hram⟩

/-! ## A push and then a pull -/

theorem pop_push_sp (v : Byte) (s : State) : (pop (push v s)).2.sp = s.sp := by
  rw [pop_sp, push_sp, BitVec.sub_add_cancel]

/-- What a push left in RAM is what the next pull reads, wherever SP stands. -/
theorem pop_push_fst {s : State} (v : Byte) (hs : s.Inv) (hram : s.isRam (stackAddr s.sp)) :
    (pop (push v s)).1 = v := by
  have hram' : (push v s).isRam (stackAddr s.sp) := (push_isDevice v s _).trans hram
  rw [pop_fst, push_sp, BitVec.sub_add_cancel, busValue_ram hram', push_read_same hs hram]

/-- Settles O34: the pull reads the pushed byte at the same address; P comes back because `Flags.ofByte` undoes
`Flags.toByte` whatever bit 4 was. -/
theorem pullUndoesPush : Obligations.PullUndoesPush := by
  intro s hs hram
  refine ⟨⟨push s.a s, _, rfl, exec_pla _, ?_, pop_push_sp _ s, ?_⟩,
    ⟨push (s.p.toByte s.params.phpB) s, _, rfl, exec_plp _, ?_, pop_push_sp _ s⟩⟩
  · exact pop_push_fst s.a hs hram
  · rw [pop_push_fst s.a hs hram, push_p]
  · rw [pop_push_fst _ hs hram, Flags.ofByte_toByte]

end Sys2Proof.Machine
end

section
/-!
Bytes as integers, for the arithmetic of spec R210-R214: carries, two's complement and the high digit.
-/

namespace Sys2Proof.Machine

theorem carryNat_eq_toNat (c : Bool) : carryNat c = c.toNat := by cases c <;> rfl

/-- Two's complement of a byte, by its value. -/
theorem byte_toInt_eq (v : Byte) : v.toInt = v.toNat - if 128 ≤ v.toNat then 256 else 0 := by
  rw [BitVec.toInt_eq_toNat_cond]
  split <;> split <;> omega

theorem byte_not_toInt (m : Byte) : (~~~m).toInt = -m.toInt - 1 := by
  have hm : m.toNat < 256 := m.isLt
  rw [byte_toInt_eq, byte_toInt_eq, BitVec.toNat_not]
  split <;> split <;> omega

/-- `v & 0xF0` keeps the high digit of `v` (R211). -/
theorem highDigit_toNat (v : Byte) : (v &&& 0xF0#8).toNat = 16 * (v.toNat / 16) := by
  have hv : v.toNat < 256 := v.isLt
  have hshift : v &&& 0xF0#8 = (v >>> 4) <<< 4 := by
    ext i hi
    interval_cases i <;> simp
  rw [hshift, BitVec.toNat_shiftLeft, BitVec.toNat_ushiftRight, Nat.shiftRight_eq_div_pow, Nat.shiftLeft_eq]
  omega

theorem highDigitInt_eq (v : Byte) : highDigitInt v = signedHighDigit v := by
  rw [highDigitInt, byte_toInt_eq, highDigit_toNat, signedHighDigit]
  split <;> split <;> omega

end Sys2Proof.Machine
end

section
/-!
The results of the ALU in integers, in the terms of spec R210-R213 and R219-R221: one equation for each operation of
Machine/Flags.lean.
-/

namespace Sys2Proof.Machine

/-! ## Binary addition and subtraction -/

/-- The 9-bit sum of R210. -/
theorem nineBitSum_toNat (a m : Byte) (c : Bool) :
    (a.zeroExtend 9 + m.zeroExtend 9 + (BitVec.ofBool c).zeroExtend 9).toNat = a.toNat + m.toNat + c.toNat := by
  have ha : a.toNat < 256 := a.isLt
  have hm : m.toNat < 256 := m.isLt
  have hc : c.toNat < 2 := c.toNat_lt
  simp only [BitVec.toNat_add, BitVec.truncate_eq_setWidth, BitVec.toNat_setWidth, BitVec.toNat_ofBool]
  omega

/-- Binary ADC (R210): the low byte of the sum and its carry. -/
theorem adcBinary_eq {a m r : Byte} {f : Flags} (hr : r = BitVec.ofNat 8 (a.toNat + m.toNat + f.c.toNat)) :
    adcBinary a m f = (r, { flagsNZ f r with
      c := decide (256 ≤ a.toNat + m.toNat + f.c.toNat)
      v := (~~~(a ^^^ m) &&& (a ^^^ r)).getLsbD 7 }) := by
  have hlow : (a.zeroExtend 9 + m.zeroExtend 9 + (BitVec.ofBool f.c).zeroExtend 9).extractLsb' 0 8 = r := by
    rw [hr, BitVec.extractLsb', nineBitSum_toNat, Nat.shiftRight_zero]
  have hcarry : (a.zeroExtend 9 + m.zeroExtend 9 + (BitVec.ofBool f.c).zeroExtend 9).msb
      = decide (256 ≤ a.toNat + m.toNat + f.c.toNat) := by
    rw [BitVec.msb_eq_decide, nineBitSum_toNat]
  simp only [adcBinary, hlow, hcarry, Flags.setNZ_eq_flagsNZ, BitVec.msb_eq_getLsbD_last]

/-- Binary SBC (R212): no borrow from A - M - (1 - C) is the carry of the complemented sum. -/
theorem sbcBinary_eq {a m r : Byte} {f : Flags} (hr : r = BitVec.ofNat 8 (a.toNat + (255 - m.toNat) + f.c.toNat)) :
    sbcBinary a m f = (r, { flagsNZ f r with
      c := decide (m.toNat + (1 - f.c.toNat) ≤ a.toNat)
      v := ((a ^^^ m) &&& (a ^^^ r)).getLsbD 7 }) := by
  have hm : m.toNat < 256 := m.isLt
  have hc : f.c.toNat < 2 := f.c.toNat_lt
  have hnot : (~~~m).toNat = 255 - m.toNat := BitVec.toNat_not
  have hcarry : decide (256 ≤ a.toNat + (255 - m.toNat) + f.c.toNat)
      = decide (m.toNat + (1 - f.c.toNat) ≤ a.toNat) := decide_eq_decide.mpr (by omega)
  rw [← hnot] at hr hcarry
  rw [sbcBinary, adcBinary_eq hr, hcarry, BitVec.not_xor_right, BitVec.not_not]

/-- The overflow formula of R210 is two's-complement overflow (R214). -/
theorem adcBinary_v_iff (a m : Byte) (f : Flags) : (adcBinary a m f).2.v = true ↔
    a.toInt + m.toInt + f.c.toInt < -128 ∨ 127 < a.toInt + m.toInt + f.c.toInt := by
  have ha : a.toNat < 256 := a.isLt
  have hm : m.toNat < 256 := m.isLt
  have hc : f.c.toNat < 2 := f.c.toNat_lt
  have hcInt : f.c.toInt = f.c.toNat := by cases f.c <;> rfl
  have hsigns : (adcBinary a m f).2.v = true ↔ ((128 ≤ a.toNat ↔ 128 ≤ m.toNat)
      ∧ ¬(128 ≤ a.toNat ↔ 128 ≤ (a.toNat + m.toNat + f.c.toNat) % 256)) := by
    rw [adcBinary_eq rfl, ← BitVec.msb_eq_getLsbD_last, BitVec.msb_and, BitVec.msb_not, BitVec.msb_xor, BitVec.msb_xor]
    simp [BitVec.msb_eq_decide]
  rw [hsigns, hcInt, byte_toInt_eq, byte_toInt_eq]
  omega

/-- The same of SBC, whose operand is the complement of M (R214). -/
theorem sbcBinary_v_iff (a m : Byte) (f : Flags) : (sbcBinary a m f).2.v = true ↔
    a.toInt - m.toInt - (1 - f.c.toInt) < -128 ∨ 127 < a.toInt - m.toInt - (1 - f.c.toInt) := by
  rw [sbcBinary, adcBinary_v_iff, byte_not_toInt]
  omega

/-- SBC right after ADC of the same byte: the operand and its complement add up to 255, whatever M is (R214). -/
theorem sbcBinary_adcBinary_toNat (a m : Byte) (f g : Flags) :
    (sbcBinary (adcBinary a m f).1 m g).1.toNat = (a.toNat + f.c.toNat + g.c.toNat + 255) % 256 := by
  have hm : m.toNat < 256 := m.isLt
  rw [adcBinary_eq rfl, sbcBinary_eq rfl]
  simp only [BitVec.toNat_ofNat]
  omega

/-- `a + c + d - 1` modulo 256 is `a` exactly when one of the two carries is 1. -/
theorem eq_iff_carries_ne {a r : Byte} {c d : Bool} (h : r.toNat = (a.toNat + c.toNat + d.toNat + 255) % 256) :
    r = a ↔ c ≠ d := by
  have ha : a.toNat < 256 := a.isLt
  have hcarries : c ≠ d ↔ c.toNat + d.toNat = 1 := by cases c <;> cases d <;> decide
  have hc : c.toNat < 2 := c.toNat_lt
  have hd : d.toNat < 2 := d.toNat_lt
  rw [← BitVec.toNat_inj, h, hcarries]
  omega

/-! ## Decimal addition and subtraction -/

/-- Decimal ADC (R211). -/
theorem adcDecimal_eq {a m : Byte} {f : Flags} {low al sum adj : Nat} {ts : Int}
    (hlow : low = a.toNat % 16 + m.toNat % 16 + f.c.toNat)
    (hal : al = if 0x0A ≤ low then (low + 0x06) % 16 + 0x10 else low)
    (hsum : sum = 16 * (a.toNat / 16) + 16 * (m.toNat / 16) + al)
    (hadj : adj = if 0xA0 ≤ sum then sum + 0x60 else sum)
    (hts : ts = signedHighDigit a + signedHighDigit m + al) :
    adcDecimal a m f = (BitVec.ofNat 8 adj, { flagsNZ f (BitVec.ofNat 8 adj) with
      c := decide (0x100 ≤ adj)
      v := decide (ts < -128 ∨ 127 < ts) }) := by
  subst hlow hal hsum hadj hts
  simp only [adcDecimal, adcLowDigit, carryNat_eq_toNat, highDigit_toNat, highDigitInt_eq, Flags.setNZ_eq_flagsNZ,
    ge_iff_le, gt_iff_lt]

/-- Decimal SBC (R213). -/
theorem sbcDecimal_eq {a m : Byte} {f : Flags} {al diff adj res : Int}
    (hal : al = (a.toNat % 16 : Nat) - (m.toNat % 16 : Nat) + f.c.toNat - 1)
    (hdiff : diff = a.toNat - m.toNat + f.c.toNat - 1)
    (hadj : adj = if diff < 0 then diff - 0x60 else diff)
    (hres : res = if al < 0 then adj - 0x06 else adj) :
    sbcDecimal a m f = (BitVec.ofInt 8 res, { flagsNZ f (BitVec.ofInt 8 res) with
      c := decide (m.toNat + (1 - f.c.toNat) ≤ a.toNat)
      v := ((a ^^^ m) &&& (a ^^^ (BitVec.ofNat 8 (a.toNat + (255 - m.toNat) + f.c.toNat)))).getLsbD 7 }) := by
  subst hal hdiff hadj hres
  simp only [sbcDecimal, carryNat_eq_toNat, Flags.setNZ_eq_flagsNZ, sbcBinary_eq rfl]

section digits

variable {a m : Byte} {c : Bool}

/-- On decimal digits the sequence of R211 gives the digits of the sum, with its hundreds as the carry. -/
theorem adcSequence_bcdValue {low al sum adj : Nat} (ha : isBcd a) (hm : isBcd m)
    (hlow : low = a.toNat % 16 + m.toNat % 16 + c.toNat)
    (hal : al = if 0x0A ≤ low then (low + 0x06) % 16 + 0x10 else low)
    (hsum : sum = 16 * (a.toNat / 16) + 16 * (m.toNat / 16) + al)
    (hadj : adj = if 0xA0 ≤ sum then sum + 0x60 else sum) :
    isBcd (BitVec.ofNat 8 adj) ∧ bcdValue (BitVec.ofNat 8 adj) + (if 0x100 ≤ adj then 100 else 0)
      = bcdValue a + bcdValue m + c.toNat := by
  have hc : c.toNat < 2 := c.toNat_lt
  simp only [isBcd, bcdValue, BitVec.toNat_ofNat] at ha hm ⊢
  split at hal <;> split at hadj <;> split <;> omega

/-- On decimal digits the sequence of R213 gives the digits of the difference, borrowing a hundred where A is below
M and the borrow. -/
theorem sbcSequence_bcdValue {al diff adj res : Int} (ha : isBcd a) (hm : isBcd m)
    (hal : al = (a.toNat % 16 : Nat) - (m.toNat % 16 : Nat) + c.toNat - 1)
    (hdiff : diff = a.toNat - m.toNat + c.toNat - 1)
    (hadj : adj = if diff < 0 then diff - 0x60 else diff)
    (hres : res = if al < 0 then adj - 0x06 else adj) :
    isBcd (BitVec.ofInt 8 res) ∧ bcdValue (BitVec.ofInt 8 res) + bcdValue m + (1 - c.toNat)
      = bcdValue a + (if m.toNat + (1 - c.toNat) ≤ a.toNat then 0 else 100) := by
  have hc : c.toNat < 2 := c.toNat_lt
  simp only [isBcd, bcdValue, BitVec.toNat_ofInt] at ha hm ⊢
  split at hadj <;> split at hres <;> split <;> omega

end digits

/-! ## Which arithmetic the D flag and DECIMAL_MODE choose (R211, R213) -/

section decimalActive

variable {p : Params} {f : Flags}

theorem decimalActive_of_binary (h : f.d = false ∨ p.decimalMode = .binary) : decimalActive p f = false := by
  obtain hd | hmode := h
  · rw [decimalActive, hd, Bool.false_and]
  · rw [decimalActive, hmode]
    exact Bool.and_false _

theorem decimalActive_of_decimal (hd : f.d = true) (hmode : p.decimalMode = .bcd65c02) : decimalActive p f = true := by
  rw [decimalActive, hd, hmode]
  rfl

variable {a m : Byte}

theorem adcResult_of_binary (h : f.d = false ∨ p.decimalMode = .binary) : adcResult p a m f = adcBinary a m f := by
  rw [adcResult, decimalActive_of_binary h, if_neg Bool.false_ne_true]

theorem sbcResult_of_binary (h : f.d = false ∨ p.decimalMode = .binary) : sbcResult p a m f = sbcBinary a m f := by
  rw [sbcResult, decimalActive_of_binary h, if_neg Bool.false_ne_true]

theorem adcResult_of_decimal (hd : f.d = true) (hmode : p.decimalMode = .bcd65c02) :
    adcResult p a m f = adcDecimal a m f := by
  rw [adcResult, decimalActive_of_decimal hd hmode, if_pos rfl]

theorem sbcResult_of_decimal (hd : f.d = true) (hmode : p.decimalMode = .bcd65c02) :
    sbcResult p a m f = sbcDecimal a m f := by
  rw [sbcResult, decimalActive_of_decimal hd hmode, if_pos rfl]

end decimalActive

/-! ## Compare -/

/-- CMP, CPX, CPY (R219-R221). -/
theorem compareFlags_eq (reg m : Byte) (f : Flags) : compareFlags reg m f = { f with
    n := (reg - m).getLsbD 7
    z := decide (reg = m)
    c := decide (m.toNat ≤ reg.toNat) } := by
  have hz : (reg - m == 0x00#8) = decide (reg = m) := by
    rw [Bool.eq_iff_iff, beq_iff_eq, decide_eq_true_iff]
    exact sub_eq_zero
  simp only [compareFlags, Flags.setNZ, hz, BitVec.msb_eq_getLsbD_last]

/-- A compare is the binary SBC with carry-in 1 that leaves V alone (R222). -/
theorem compareFlags_eq_sbcBinary (a m : Byte) (f : Flags) :
    compareFlags a m f = { (sbcBinary a m { f with c := true }).2 with v := f.v } := by
  have hm : m.toNat < 256 := m.isLt
  have hdiff : a - m = BitVec.ofNat 8 (a.toNat + (255 - m.toNat) + true.toNat) := by
    rw [BitVec.sub_def, Bool.toNat_true]
    congr 1
    omega
  rw [sbcBinary_eq hdiff, compareFlags, Flags.setNZ_eq_flagsNZ]
  rfl

end Sys2Proof.Machine
end

section
/-!
Arithmetic, logic and compare (spec R210-R222, R336): each instruction loads its operand and writes the result of its
ALU operation.
-/

namespace Sys2Proof.Machine

/-- The operand of `load` does not depend on P. -/
theorem load_setP_fst (src : Src) (s : State) (f : Flags) : (load src (s.setP f)).1 = (load src s).1 := by
  cases src with
  | imm _ => rfl
  | mem m => cases m <;> rfl

section exec

variable (src : Src) (m : Addr) (s : State)

theorem exec_and : exec (.and src) s = .next { (load src s).2 with
    a := s.a &&& (load src s).1
    p := flagsNZ s.p (s.a &&& (load src s).1) } :=
  congrArg Host.Outcome.next <| by rw [accumulate_eq, andResult, Flags.setNZ_eq_flagsNZ]

theorem exec_ora : exec (.ora src) s = .next { (load src s).2 with
    a := s.a ||| (load src s).1
    p := flagsNZ s.p (s.a ||| (load src s).1) } :=
  congrArg Host.Outcome.next <| by rw [accumulate_eq, oraResult, Flags.setNZ_eq_flagsNZ]

theorem exec_eor : exec (.eor src) s = .next { (load src s).2 with
    a := s.a ^^^ (load src s).1
    p := flagsNZ s.p (s.a ^^^ (load src s).1) } :=
  congrArg Host.Outcome.next <| by rw [accumulate_eq, eorResult, Flags.setNZ_eq_flagsNZ]

theorem exec_cmp : exec (.cmp src) s = .next { (load src s).2 with p := compareFlags s.a (load src s).1 s.p } :=
  congrArg Host.Outcome.next (compareRegister_eq s.a src s)

theorem exec_cpx : exec (.cpx src) s = .next { (load src s).2 with p := compareFlags s.x (load src s).1 s.p } :=
  congrArg Host.Outcome.next (compareRegister_eq s.x src s)

theorem exec_cpy : exec (.cpy src) s = .next { (load src s).2 with p := compareFlags s.y (load src s).1 s.p } :=
  congrArg Host.Outcome.next (compareRegister_eq s.y src s)

theorem exec_bit_mem : exec (.bit (.mem m)) s = .next { (load (.mem m) s).2 with
    p := bitFlags s.a (load (.mem m) s).1 s.p } :=
  congrArg Host.Outcome.next <| by rw [load_a, load_p]; rfl

end exec

section arithmetic

variable {s : State} (src : Src)

theorem exec_adc_binary (h : s.p.d = false ∨ s.params.decimalMode = .binary) :
    exec (.adc src) s = .next { (load src s).2 with
      a := (adcBinary s.a (load src s).1 s.p).1
      p := (adcBinary s.a (load src s).1 s.p).2 } :=
  congrArg Host.Outcome.next <| by rw [accumulate_eq, adcResult_of_binary h]

theorem exec_sbc_binary (h : s.p.d = false ∨ s.params.decimalMode = .binary) :
    exec (.sbc src) s = .next { (load src s).2 with
      a := (sbcBinary s.a (load src s).1 s.p).1
      p := (sbcBinary s.a (load src s).1 s.p).2 } :=
  congrArg Host.Outcome.next <| by rw [accumulate_eq, sbcResult_of_binary h]

theorem exec_adc_decimal (hd : s.p.d = true) (hmode : s.params.decimalMode = .bcd65c02) :
    exec (.adc src) s = .next { (load src s).2 with
      a := (adcDecimal s.a (load src s).1 s.p).1
      p := (adcDecimal s.a (load src s).1 s.p).2 } :=
  congrArg Host.Outcome.next <| by rw [accumulate_eq, adcResult_of_decimal hd hmode]

theorem exec_sbc_decimal (hd : s.p.d = true) (hmode : s.params.decimalMode = .bcd65c02) :
    exec (.sbc src) s = .next { (load src s).2 with
      a := (sbcDecimal s.a (load src s).1 s.p).1
      p := (sbcDecimal s.a (load src s).1 s.p).2 } :=
  congrArg Host.Outcome.next <| by rw [accumulate_eq, sbcResult_of_decimal hd hmode]

end arithmetic

end Sys2Proof.Machine
end

section
/-!
Arithmetic, logic and compare (spec R210-R222, R336). The theorems that settle the statements stand in a namespace of
their own, because four of their names are those of operations of the model.
-/

namespace Sys2Proof.Alu

open Sys2Proof.Machine

/-! ## Binary arithmetic -/

/-- Settles O35: `load` makes the reads of its mode, and A and P take the binary sum. -/
theorem adcBinary : Obligations.AdcBinary := by
  refine ⟨fun src s hbin => ?_, fun _ _ => rfl⟩
  exact ⟨_, (load src s).2, _, exec_adc_binary src hbin, load_afterReads src s, rfl, by rw [adcBinary_eq rfl]⟩

/-- Settles O36: as ADC, with the sum of the complemented operand, whose carry is the absence of a borrow. -/
theorem sbcBinary : Obligations.SbcBinary := by
  refine ⟨fun src s hbin => ?_, fun _ _ => rfl⟩
  exact ⟨_, (load src s).2, _, exec_sbc_binary src hbin, load_afterReads src s, rfl, by rw [sbcBinary_eq rfl]⟩

/-- Settles O37: V is the overflow of the signed sum, for SBC with the complement of M as the operand. -/
theorem overflowIsSigned : Obligations.OverflowIsSigned := by
  intro m s hd
  exact ⟨_, _, exec_adc_binary (.imm m) (.inl hd), exec_sbc_binary (.imm m) (.inl hd),
    adcBinary_v_iff s.a m s.p, sbcBinary_v_iff s.a m s.p⟩

/-- Settles O40: the sum and the complemented sum add 255 and the two carries to A modulo 256. -/
theorem sbcAfterAdc : Obligations.SbcAfterAdc := by
  intro m s hbin
  have hbyte := sbcBinary_adcBinary_toNat s.a m s.p (Machine.adcBinary s.a m s.p).2
  exact ⟨_, _, exec_adc_binary (.imm m) hbin, exec_sbc_binary (.imm m) hbin, hbyte, eq_iff_carries_ne hbyte⟩

/-! ## Decimal arithmetic -/

/-- Settles O38: the model's decimal sum is the sequence of R211, and on digits that sequence is the decimal sum. -/
theorem adcDecimal : Obligations.AdcDecimal := by
  intro src s hd hmode
  have hadc := exec_adc_decimal src hd hmode
  rw [adcDecimal_eq rfl rfl rfl rfl rfl] at hadc
  refine ⟨_, (load src s).2, _, _, _, _, _, hadc, load_afterReads src s, rfl, rfl, rfl, rfl, rfl, rfl, fun ha hm => ?_⟩
  simpa only [decide_eq_true_eq] using adcSequence_bcdValue ha hm rfl rfl rfl rfl

/-- Settles O39: the model's decimal difference is the sequence of R213, and on digits that sequence is the decimal
difference. -/
theorem sbcDecimal : Obligations.SbcDecimal := by
  intro src s hd hmode
  have hsbc := exec_sbc_decimal src hd hmode
  rw [sbcDecimal_eq rfl rfl rfl rfl] at hsbc
  refine ⟨_, (load src s).2, _, _, _, _, hsbc, load_afterReads src s, rfl, rfl, rfl, rfl, rfl, fun ha hm => ?_⟩
  simpa only [decide_eq_true_eq] using sbcSequence_bcdValue ha hm rfl rfl rfl rfl

/-! ## Logic, BIT and compare -/

/-- Settles O41: `load` makes the reads of its mode, and the operation's byte reaches A, N and Z. -/
theorem logicOnA : Obligations.LogicOnA := by
  refine ⟨fun src s => ?_, fun src s => ?_, fun src s => ?_, fun _ _ => ⟨rfl, rfl, rfl⟩⟩
  · exact ⟨_, (load src s).2, exec_and src s, load_afterReads src s, rfl⟩
  · exact ⟨_, (load src s).2, exec_ora src s, load_afterReads src s, rfl⟩
  · exact ⟨_, (load src s).2, exec_eor src s, load_afterReads src s, rfl⟩

/-- Settles O42: of memory BIT takes three flags, of an immediate, which is not read again, Z alone. -/
theorem bitTestsFlags : Obligations.BitTestsFlags := by
  refine ⟨fun m s => ?_, fun v s => rfl, fun _ _ => rfl⟩
  exact ⟨_, (load (.mem m) s).2, exec_bit_mem m s, load_afterReads (.mem m) s, rfl⟩

/-- Settles O43: `load` makes the reads of its mode, and the comparison reaches P alone. -/
theorem comparesSetFlags : Obligations.ComparesSetFlags := by
  refine ⟨fun src s => ?_, fun src s => ?_, fun src s => ?_, fun _ _ => ⟨rfl, rfl, rfl⟩⟩
  · exact ⟨_, (load src s).2, exec_cmp src s, load_afterReads src s, by rw [compareFlags_eq]⟩
  · exact ⟨_, (load src s).2, exec_cpx src s, load_afterReads src s, by rw [compareFlags_eq]⟩
  · exact ⟨_, (load src s).2, exec_cpy src s, load_afterReads src s, by rw [compareFlags_eq]⟩

/-- Settles O44: with C = 1 the complemented sum is the difference, and its carry is `M ≤ A`. -/
theorem cmpMatchesSbcWithCarry : Obligations.CmpMatchesSbcWithCarry := by
  intro src s hbin
  have hsbc := exec_sbc_binary (s := s.setP { s.p with c := true }) src hbin
  rw [load_setP_fst] at hsbc
  refine ⟨_, _, exec_cmp src s, hsbc, ?_⟩
  rw [compareFlags_eq_sbcBinary]
  exact ⟨rfl, rfl, rfl, rfl, load_a src s, load_x src s, load_y src s⟩

end Sys2Proof.Alu
end

section
/-!
Shifts, rotates, increments and decrements (spec R250-R260, R335): the results of their operations in integers, and the
instructions, each of which is `modifyLoc` of its operation or a copy of its index register's next byte.
-/

namespace Sys2Proof.Machine

/-- `modifyLoc_modifies`, for an operation given by another formula. -/
theorem modifyLoc_modifies_of_eq {f g : Byte → Flags → Byte × Flags} (hfg : ∀ v p, f v p = g v p) (loc : Loc)
    {s : State} (hs : s.Inv) : Modifies loc g s (modifyLoc loc f s) := by
  obtain rfl : f = g := funext₂ hfg
  exact modifyLoc_modifies loc f hs

/-! ## Shifted and rotated bytes in integers -/

section byte

variable (v : Byte) (c : Bool)

theorem byte_shiftLeft_one_eq : v <<< 1 = BitVec.ofNat 8 (2 * v.toNat) := by
  apply BitVec.eq_of_toNat_eq
  rw [BitVec.toNat_shiftLeft, Nat.shiftLeft_eq, BitVec.toNat_ofNat, Nat.mul_comm, Nat.pow_one]

theorem byte_ushiftRight_one_eq : v >>> 1 = BitVec.ofNat 8 (v.toNat / 2) := by
  have hv : v.toNat < 256 := v.isLt
  apply BitVec.eq_of_toNat_eq
  rw [BitVec.toNat_ushiftRight, Nat.shiftRight_eq_div_pow, BitVec.toNat_ofNat]
  omega

/-- ROL's carry goes to the bit the shift freed, so that `|||` adds it. -/
theorem byte_rotateLeft_eq :
    (v <<< 1) ||| (BitVec.ofBool c).zeroExtend 8 = BitVec.ofNat 8 (2 * v.toNat + c.toNat) := by
  have hdisjoint : (v <<< 1) &&& (BitVec.ofBool c).zeroExtend 8 = 0 := by
    ext i hi
    cases i <;> simp
  rw [← BitVec.add_eq_or_of_and_eq_zero _ _ hdisjoint, byte_shiftLeft_one_eq]
  cases c <;> simp [BitVec.ofNat_add]

/-- ROR's likewise, in bit 7. -/
theorem byte_rotateRight_eq :
    (v >>> 1) ||| ((BitVec.ofBool c).zeroExtend 8 <<< 7) = BitVec.ofNat 8 (v.toNat / 2 + 128 * c.toNat) := by
  have hdisjoint : (v >>> 1) &&& ((BitVec.ofBool c).zeroExtend 8 <<< 7) = 0 := by
    ext i hi
    interval_cases i <;> simp
  rw [← BitVec.add_eq_or_of_and_eq_zero _ _ hdisjoint, byte_ushiftRight_one_eq]
  cases c <;> simp [BitVec.ofNat_add]

theorem byte_add_one_eq : v + 1 = BitVec.ofNat 8 (v.toNat + 1) := by
  simp [BitVec.ofNat_add]

theorem byte_sub_one_eq : v - 1 = BitVec.ofNat 8 (v.toNat + 255) := by
  rw [BitVec.sub_def, Nat.add_comm]
  rfl

end byte

/-! ## The operations -/

section operation

variable (v : Byte) (f : Flags)

/-- ASL (R250). -/
theorem aslResult_eq : aslResult v f = (BitVec.ofNat 8 (2 * v.toNat),
    { flagsNZ f (BitVec.ofNat 8 (2 * v.toNat)) with c := v.getLsbD 7 }) := by
  rw [aslResult, byte_shiftLeft_one_eq, Flags.setNZ_eq_flagsNZ]

/-- LSR (R251). -/
theorem lsrResult_eq : lsrResult v f = (BitVec.ofNat 8 (v.toNat / 2),
    { flagsNZ f (BitVec.ofNat 8 (v.toNat / 2)) with c := v.getLsbD 0 }) := by
  rw [lsrResult, byte_ushiftRight_one_eq, Flags.setNZ_eq_flagsNZ]

/-- ROL (R252). -/
theorem rolResult_eq : rolResult v f = (BitVec.ofNat 8 (2 * v.toNat + f.c.toNat),
    { flagsNZ f (BitVec.ofNat 8 (2 * v.toNat + f.c.toNat)) with c := v.getLsbD 7 }) := by
  rw [rolResult, byte_rotateLeft_eq, Flags.setNZ_eq_flagsNZ]

/-- ROR (R253). -/
theorem rorResult_eq : rorResult v f = (BitVec.ofNat 8 (v.toNat / 2 + 128 * f.c.toNat),
    { flagsNZ f (BitVec.ofNat 8 (v.toNat / 2 + 128 * f.c.toNat)) with c := v.getLsbD 0 }) := by
  rw [rorResult, byte_rotateRight_eq, Flags.setNZ_eq_flagsNZ]

/-- INC (R255). -/
theorem incResult_eq : incResult v f =
    (BitVec.ofNat 8 (v.toNat + 1), flagsNZ f (BitVec.ofNat 8 (v.toNat + 1))) := by
  rw [incResult, byte_add_one_eq, Flags.setNZ_eq_flagsNZ]

/-- DEC (R256). -/
theorem decResult_eq : decResult v f =
    (BitVec.ofNat 8 (v.toNat + 255), flagsNZ f (BitVec.ofNat 8 (v.toNat + 255))) := by
  rw [decResult, byte_sub_one_eq, Flags.setNZ_eq_flagsNZ]

end operation

/-! ## The instructions -/

/-- Settles O45: each is `modifyLoc` of its operation, whose byte and flags are those of the rule. -/
theorem shiftsAndRotates : Obligations.ShiftsAndRotates := by
  refine ⟨?asl, ?lsr, ?rol, ?ror, fun _ _ => ⟨rfl, rfl, rfl, rfl⟩⟩
  case asl => exact fun loc s hs => ⟨modifyLoc loc aslResult s, rfl, modifyLoc_modifies_of_eq aslResult_eq loc hs⟩
  case lsr => exact fun loc s hs => ⟨modifyLoc loc lsrResult s, rfl, modifyLoc_modifies_of_eq lsrResult_eq loc hs⟩
  case rol => exact fun loc s hs => ⟨modifyLoc loc rolResult s, rfl, modifyLoc_modifies_of_eq rolResult_eq loc hs⟩
  case ror => exact fun loc s hs => ⟨modifyLoc loc rorResult s, rfl, modifyLoc_modifies_of_eq rorResult_eq loc hs⟩

section index

variable (s : State)

theorem exec_inx : exec .inx s =
    .next { s with x := .ofNat 8 (s.x.toNat + 1), p := flagsNZ s.p (.ofNat 8 (s.x.toNat + 1)) } :=
  congrArg Host.Outcome.next <| by rw [byte_add_one_eq, State.setNZ_setX]

theorem exec_dex : exec .dex s =
    .next { s with x := .ofNat 8 (s.x.toNat + 255), p := flagsNZ s.p (.ofNat 8 (s.x.toNat + 255)) } :=
  congrArg Host.Outcome.next <| by rw [byte_sub_one_eq, State.setNZ_setX]

theorem exec_iny : exec .iny s =
    .next { s with y := .ofNat 8 (s.y.toNat + 1), p := flagsNZ s.p (.ofNat 8 (s.y.toNat + 1)) } :=
  congrArg Host.Outcome.next <| by rw [byte_add_one_eq, State.setNZ_setY]

theorem exec_dey : exec .dey s =
    .next { s with y := .ofNat 8 (s.y.toNat + 255), p := flagsNZ s.p (.ofNat 8 (s.y.toNat + 255)) } :=
  congrArg Host.Outcome.next <| by rw [byte_sub_one_eq, State.setNZ_setY]

end index

/-- Settles O46: INC and DEC are `modifyLoc` of their operation; the index forms put the next or previous byte into their
register. -/
theorem incrementsAndDecrements : Obligations.IncrementsAndDecrements := by
  refine ⟨?inc, ?dec, fun s => ⟨exec_inx s, exec_dex s, exec_iny s, exec_dey s⟩, fun _ _ => ⟨rfl, rfl⟩, rfl⟩
  case inc => exact fun loc s hs => ⟨modifyLoc loc incResult s, rfl, modifyLoc_modifies_of_eq incResult_eq loc hs⟩
  case dec => exact fun loc s hs => ⟨modifyLoc loc decResult s, rfl, modifyLoc_modifies_of_eq decResult_eq loc hs⟩

end Sys2Proof.Machine
end

section
/-!
Control transfers (spec R280-R294, R331, R341): branches and jumps set PC; subroutine calls, returns and BRK also move
the stack.
-/

namespace Sys2Proof.Machine

/-! ## Branches and jumps -/

/-- Settles O47: each branch is `branchIf` of its condition. -/
theorem branchesMovePcWhenTaken : Obligations.BranchesMovePcWhenTaken := by
  intro mk op cond hmem d s
  rw [← branchIf_eq (cond s.p) d s]
  simp only [List.mem_cons, Prod.mk.injEq, List.not_mem_nil, or_false] at hmem
  obtain ⟨rfl, rfl, rfl⟩ | ⟨rfl, rfl, rfl⟩ | ⟨rfl, rfl, rfl⟩ | ⟨rfl, rfl, rfl⟩ | ⟨rfl, rfl, rfl⟩ |
    ⟨rfl, rfl, rfl⟩ | ⟨rfl, rfl, rfl⟩ | ⟨rfl, rfl, rfl⟩ | ⟨rfl, rfl, rfl⟩ := hmem
  all_goals exact ⟨rfl, rfl⟩

theorem jmp_length (g : Target) : (Instr.jmp g).length = 3 := by
  cases g <;> rfl

/-- Settles O48: the indirect forms load PC with the value of a `readPair`. -/
theorem jumpsLoadPc : Obligations.JumpsLoadPc := by
  refine ⟨fun _ _ => rfl, fun w s => ?ind, fun w s => ?indX, fun _ => ⟨rfl, rfl, rfl, jmp_length⟩⟩
  case ind =>
    obtain ⟨lo, hi, hreads, hval, hlo, hhi⟩ := readPair_afterReads w (w + 1) s
    exact ⟨_, _, lo, hi, rfl, hreads, by rw [← hval]; rfl, hlo, hhi⟩
  case indX =>
    rw [← add_zeroExtend16]
    obtain ⟨lo, hi, hreads, hval, hlo, hhi⟩ :=
      readPair_afterReads (w + zeroExtend16 s.x) (w + zeroExtend16 s.x + 1) s
    exact ⟨_, _, lo, hi, _, rfl, (add_zeroExtend16 w s.x).symm, hreads, by rw [← hval]; rfl, hlo, hhi⟩

/-! ## Subroutines -/

/-- Settles O49: JSR is the two-byte push of PC - 1 and then the new PC. -/
theorem jsrPushesItsReturnAddress : Obligations.JsrPushesItsReturnAddress := by
  intro w s hs
  obtain ⟨hstate, hother, hhigh, hlow⟩ := pushWord_afterWrites (s.pc - 1) hs
  refine ⟨(pushWord (s.pc - 1) s).setPc w, rfl, ?_, hother, hhigh, hlow, rfl, rfl⟩
  calc (pushWord (s.pc - 1) s).setPc w
    _ = { pushWord (s.pc - 1) s with pc := w } := rfl
    _ = _ := by rw [hstate]; rfl

/-- `popWord` (R292, R293) as two reads of the state before it, and SP two higher. -/
theorem popWord_eq_readPair (s : State) : popWord s =
    ((readPair (stackAddr (s.sp + 1)) (stackAddr (s.sp + 2)) s).1,
      { (readPair (stackAddr (s.sp + 1)) (stackAddr (s.sp + 2)) s).2 with sp := s.sp + 2 }) := by
  have hsp : s.sp + 2 = s.sp + 1 + 1 := by bv_omega
  rw [hsp]
  rfl

/-- Settles O50: RTS pops its two bytes by a `readPair` on the stack. -/
theorem rtsPopsAndAddsOne : Obligations.RtsPopsAndAddsOne := by
  intro s
  obtain ⟨lo, hi, hreads, hval, hlo, hhi⟩ := readPair_afterReads (stackAddr (s.sp + 1)) (stackAddr (s.sp + 2)) s
  refine ⟨(popWord s).2.setPc ((popWord s).1 + 1), _, lo, hi, rfl, hreads, ?_, hlo, hhi, rfl, rfl⟩
  rw [popWord_eq_readPair, hval, State.setPc]

theorem popWord_pushWord_sp (w : Word) (s : State) : (popWord (pushWord w s)).2.sp = s.sp := by
  rw [popWord_sp, pushWord_sp, BitVec.sub_add_cancel, BitVec.sub_add_cancel]

/-- What a two-byte push left in RAM is what the next two-byte pop reads, wherever SP stands. -/
theorem popWord_pushWord_fst {s : State} (w : Word) (hs : s.Inv) (hhi : s.isRam (stackAddr s.sp))
    (hlo : s.isRam (stackAddr (s.sp - 1))) : (popWord (pushWord w s)).1 = w := by
  obtain ⟨-, -, hhigh, hlow⟩ := pushWord_afterWrites w hs
  obtain ⟨lo, hi, -, hval, hreadLo, hreadHi⟩ := popWord_afterReads (pushWord w s)
  have hspLo : (pushWord w s).sp + 1 = s.sp - 1 := by rw [pushWord_sp, BitVec.sub_add_cancel]
  have hspHi : (pushWord w s).sp + 2 = s.sp := by rw [pushWord_sp]; bv_omega
  rw [hspLo] at hreadLo
  rw [hspHi] at hreadHi
  calc (popWord (pushWord w s)).1
    _ = joinBytes hi lo := hval
    _ = joinBytes (highByte w) (lowByte w) := by
      rw [hreadHi ((pushWord_isDevice w s _).trans hhi), hhigh hhi,
        hreadLo ((pushWord_isDevice w s _).trans hlo), hlow hlo]
    _ = w := joinBytes_highByte_lowByte w

theorem popWord_setPc_fst (w : Word) (s : State) : (popWord (s.setPc w)).1 = (popWord s).1 := rfl

/-- Settles O51: the pop gives PC - 1 and the old SP back, and neither instruction touches another register. -/
theorem rtsReturnsFromJsr : Obligations.RtsReturnsFromJsr := by
  intro w s hs hhi hlo
  refine ⟨(pushWord (s.pc - 1) s).setPc w, _, rfl, rfl, ?pc, ?sp, ?others⟩
  case pc =>
    rw [State.setPc_pc, popWord_setPc_fst, popWord_pushWord_fst _ hs hhi hlo, BitVec.sub_add_cancel]
  case sp =>
    rw [State.setPc_sp, popWord_sp, State.setPc_sp, ← popWord_sp, popWord_pushWord_sp]
  case others => simp

/-! ## RTI and BRK -/

/-- RTI (R293) as three reads of the state before it, and then SP, PC and P. -/
theorem returnFromInterrupt_eq_reads (s : State) : returnFromInterrupt s =
    { (readPair (stackAddr (s.sp + 2)) (stackAddr (s.sp + 3)) (memRead (stackAddr (s.sp + 1)) s).2).2 with
      sp := s.sp + 3
      pc := (readPair (stackAddr (s.sp + 2)) (stackAddr (s.sp + 3)) (memRead (stackAddr (s.sp + 1)) s).2).1
      p  := Flags.ofByte (s.busValue (stackAddr (s.sp + 1))) } := by
  have hsp2 : s.sp + 2 = s.sp + 1 + 1 := by bv_omega
  have hsp3 : s.sp + 3 = s.sp + 1 + 2 := by bv_omega
  simp only [returnFromInterrupt, popWord_eq_readPair, hsp2, hsp3]
  rfl

/-- Settles O52: RTI reads P and then the two bytes of PC; `Flags.ofByte` takes the six bits of P. -/
theorem rtiPopsStatusAndPc : Obligations.RtiPopsStatusAndPc := by
  intro s
  have hstatus := memRead_afterReads (stackAddr (s.sp + 1)) s
  obtain ⟨lo, hi, hreads, hval, hlo, hhi⟩ :=
    readPair_afterReads (stackAddr (s.sp + 2)) (stackAddr (s.sp + 3)) (memRead (stackAddr (s.sp + 1)) s).2
  refine ⟨returnFromInterrupt s, _, _, lo, hi, rfl, hstatus.trans hreads, ?_,
    memRead_readsRam _ s, hstatus.readsRam hlo, hstatus.readsRam hhi, rfl, rfl⟩
  rw [returnFromInterrupt_eq_reads, hval, Flags.ofByte]

/-- BRK (R294) is one entry from the state whose IRQ latch it clears only under BRK_CLEARS_IRQ. -/
theorem softwareInterrupt_eq_takeEntry (s : State) : softwareInterrupt s = takeEntry true (s.pc + 1) irqVector
    { s with latch := { s.latch with irq := s.latch.irq && !s.params.brkClearsIrq } } := by
  unfold softwareInterrupt
  split
  next hclears => simp [hclears, State.setLatch, Latch.clear]
  next hkeeps => simp [hkeeps]

/-- Settles O53: BRK is the shared entry, with B = 1 and the IRQ vector. -/
theorem brkEntersTheHandler : Obligations.BrkEntersTheHandler := by
  intro s hs
  refine ⟨softwareInterrupt s, rfl, ?_, rfl, rfl⟩
  rw [softwareInterrupt_eq_takeEntry]
  exact takeEntry_entersHandler true (s.pc + 1) irqVector hs (.inr rfl)

end Sys2Proof.Machine
end

section
/-!
Flag instructions, NOP and the unimplemented opcodes (spec R310-R319, R114): the first set or clear one flag, the others
are a step of one fetch and nothing else.
-/

namespace Sys2Proof.Machine

/-! ## Meanings -/

/-- Settles O54: the meaning of each is a new P that differs in the one flag. -/
theorem flagInstructionsSetOneFlag : Obligations.FlagInstructionsSetOneFlag :=
  fun _ => ⟨rfl, rfl, rfl, rfl, rfl, rfl, rfl, rfl⟩

/-- Settles O55: the four meanings answer the state they are given, and none of the four has an operand byte (one byte
is the spec's decision D3). -/
theorem nopsDoNothing : Obligations.NopsDoNothing :=
  fun _ _ => ⟨rfl, rfl, rfl, rfl, rfl, rfl, rfl, rfl, rfl, rfl, rfl⟩

/-! ## Which opcodes are implemented -/

theorem implemented_of_extension {op : Byte} {g : Extension} (h : extensionOf op = some g) (p : Params) :
    implemented p op = p.enabled g := by
  simp only [implemented, h]

theorem extensionOf_undefined {op : Byte} (h : op ∈ undefinedOpcodes) : extensionOf op = none := by
  fin_cases h <;> rfl

/-- Unimplemented are the switched-off extension opcodes, the undefined bytes, WAI and STP (R114). -/
theorem implemented_eq_false_iff {p : Params} {op : Byte} : implemented p op = false ↔
    switchedOff p op = true ∨ op ∈ undefinedOpcodes ∨ op = 0xCB#8 ∨ op = 0xDB#8 := by
  cases hext : extensionOf op with
  | some g =>
    have hundefined : op ∉ undefinedOpcodes := fun h => by simp [extensionOf_undefined h] at hext
    have hwai : op ≠ 0xCB#8 := by rintro rfl; cases hext
    have hstp : op ≠ 0xDB#8 := by rintro rfl; cases hext
    simp [implemented, switchedOff, hext, hundefined, hwai, hstp]
  | none =>
    simp only [implemented, switchedOff, hext, Bool.not_eq_false', Bool.or_eq_true, List.contains_iff_mem, beq_iff_eq,
      Bool.false_eq_true, false_or, or_assoc]

/-! ## The step -/

/-- A switched-off extension opcode is fetched alone (R318, R330). -/
theorem fetchInstr_of_switchedOff {s : State} (hoff : switchedOff s.params (s.busValue s.pc) = true) :
    fetchInstr s = (.nopUndefined (s.busValue s.pc), (fetch8 s).2) := by
  simp [fetchInstr, hoff]

/-- The fetch of an opcode without operand bytes (R112). -/
theorem fetchInstr_of_bare {s : State} {i : Instr} (hon : switchedOff s.params (s.busValue s.pc) = false)
    (h : decodeOpcode (s.busValue s.pc) = .bare i) : fetchInstr s = (i, (fetch8 s).2) := by
  simp [fetchInstr, hon, h, fetchOperands]

/-- The undefined bytes, WAI, STP and NOP decode to a one-byte instruction that does nothing. -/
theorem decodeOpcode_doesNothing {op : Byte}
    (h : (op ∈ undefinedOpcodes ∨ op = 0xCB#8 ∨ op = 0xDB#8) ∨ op = 0xEA#8) :
    ∃ i, decodeOpcode op = .bare i ∧ ∀ s, exec i s = .next s := by
  obtain (hundefined | rfl | rfl) | rfl := h
  · exact ⟨.nopUndefined op, decodeOpcode_undefined hundefined, fun _ => rfl⟩
  · exact ⟨.wai, rfl, fun _ => rfl⟩
  · exact ⟨.stp, rfl, fun _ => rfl⟩
  · exact ⟨.nop, rfl, fun _ => rfl⟩

/-- An unimplemented opcode and NOP execute as their one fetch (R317, R318). -/
theorem executeOne_of_unimplemented_or_nop {s : State}
    (h : implemented s.params (s.busValue s.pc) = false ∨ s.busValue s.pc = 0xEA#8) :
    executeOne s = .next (fetch8 s).2 := by
  cases hoff : switchedOff s.params (s.busValue s.pc) with
  | true =>
    rw [executeOne, fetchInstr_of_switchedOff hoff]
    rfl
  | false =>
    rw [implemented_eq_false_iff, hoff, Bool.false_eq_true, false_or] at h
    obtain ⟨i, hdecode, hexec⟩ := decodeOpcode_doesNothing h
    rw [executeOne, fetchInstr_of_bare hoff hdecode]
    exact hexec _

/-- `fetch8` (R12) at any PC, in RAM or in a device window. -/
theorem fetch8_snd (s : State) : (fetch8 s).2 = { s with
    pc          := s.pc + 1
    cycles      := s.cycles + 1
    deviceReads := if s.isDevice s.pc then s.deviceReads + 1 else s.deviceReads
    accesses    := s.accesses ++ [.read s.pc (s.busValue s.pc)] } := rfl

/-- Settles O6: phase 1 of such a step is one fetch; the other clauses say which opcodes take it. -/
theorem unimplementedOpcodeIsAOneByteNop : Obligations.UnimplementedOpcodeIsAOneByteNop := by
  refine ⟨fun s hnone hrun h => ?step, rfl, fun p op h => ?undefined, fun p => ⟨?wai, ?stp⟩,
    fun p op g h => implemented_of_extension h p⟩
  case step =>
    have work : unitOfWork (beginStep s) = executeOne (beginStep s) := unitOfWork_of_running hnone hrun
    have fetched : executeOne (beginStep s) = .next (fetch8 (beginStep s)).2 :=
      executeOne_of_unimplemented_or_nop (by simpa using h)
    rw [step_eq_endStep, work, fetched, fetch8_snd]
    rfl
  case undefined => exact implemented_eq_false_iff.2 (.inr (.inl h))
  case wai => exact implemented_eq_false_iff.2 (.inr (.inr (.inl rfl)))
  case stp => exact implemented_eq_false_iff.2 (.inr (.inr (.inr rfl)))

end Sys2Proof.Machine
end

section
/-!
The canonical form of memory (spec R52, R63): every instruction, every step and every host call keeps it, and
construction begins with it.
-/

namespace Sys2Proof.Machine

/-! ## A step -/

/-- A meaning that answers a state of canonical memory. -/
theorem State.Inv.of_next {t u : State} (hu : u.Inv) (h : (.next u : Host.Outcome State Fault Refusal) = .next t) :
    t.Inv := by
  cases h
  exact hu

/-- The instructions that store write memory by the bus operations, which keep its form. -/
theorem exec_inv_of_stores {i : Instr} {s t : State} (hs : s.Inv) (hstores : storesToMemory i = true)
    (h : exec i s = .next t) : t.Inv := by
  cases i with
  | sta dst | stx dst | sty dst | stz dst => exact (store_inv dst _ hs).of_next h
  | asl loc | lsr loc | rol loc | ror loc | inc loc | dec loc => exact (modifyLoc_inv loc _ hs).of_next h
  | tsb loc | trb loc => exact (rmw_inv loc _ hs).of_next h
  | pha | php | phx | phy => exact (push_inv _ hs).of_next h
  | jsr target => exact (setPc_inv.2 (pushWord_inv _ hs)).of_next h
  | brk => exact (softwareInterrupt_inv hs).of_next h
  | rmb0 zz | rmb1 zz | rmb2 zz | rmb3 zz | rmb4 zz | rmb5 zz | rmb6 zz | rmb7 zz
  | smb0 zz | smb1 zz | smb2 zz | smb3 zz | smb4 zz | smb5 zz | smb6 zz | smb7 zz =>
    exact (rmw_inv (.zp zz) _ hs).of_next h
  | _ => cases hstores

/-- An instruction that does not store leaves the memory it is given. -/
theorem exec_inv {i : Instr} {s t : State} (hs : s.Inv) (h : exec i s = .next t) : t.Inv := by
  cases hstores : storesToMemory i with
  | true => exact exec_inv_of_stores hs hstores h
  | false =>
    have hmem : t.mem = s.mem := (exec_recordsWrites h).mem_eq hstores
    rwa [State.Inv, hmem]

theorem unitOfWork_inv {s t : State} (hs : s.Inv) (h : unitOfWork s = .next t) : t.Inv := by
  obtain ⟨src, -, rfl⟩ | ⟨-, -, rfl⟩ | ⟨-, -, hexec⟩ := unitOfWork_cases h
  · exact enterInterrupt_inv src hs
  · exact hs
  · exact exec_inv (fetchInstr_inv hs) hexec

/-- Settles O11: phase 1 keeps the form, whichever its unit of work, and so do the platform's writes in phase 2. -/
theorem stepKeepsMemoryCanonical : Obligations.StepKeepsMemoryCanonical := by
  intro s t hs h
  obtain ⟨u, hu, rfl⟩ := step_next_iff.1 h
  have begun : (beginStep s).Inv := hs
  exact clockBus_inv (unitOfWork_inv begun hu)

/-! ## Host calls and construction -/

theorem vectorRead_mem (a : Word) (s : State) : (vectorRead a s).2.mem = s.mem := by
  obtain ⟨lo, hi, -, hstate, -⟩ := vectorRead_spec a s
  rw [hstate]

theorem hostReset_inv {s : State} (hs : s.Inv) : (hostReset s).Inv := by
  rw [State.Inv, hostReset, State.setPc_mem, vectorRead_mem]
  exact hs

theorem newCore_inv (params : Params) {mem : Memory} (hm : mem.wf = true) (windows : List Window)
    (answers : List ClockAnswer) : (newCore params mem windows answers).Inv := by
  rw [State.Inv, newCore, State.setPc_mem, vectorRead_mem]
  exact hm

theorem hostCall_inv {c : HostCall} {s t : State} (hs : s.Inv) (h : hostCall c s = .next t) : t.Inv := by
  cases c with
  | reset => exact (hostReset_inv hs).of_next h
  | step => exact stepKeepsMemoryCanonical s t hs h
  | requestIrq | requestNmi => exact (setLatch_inv.2 hs).of_next h
  | assertHalt => exact State.Inv.of_next (u := assertHalt s) hs h

/-- Settles O12: a host call other than a step writes no byte of memory, and construction only reads its vector. -/
theorem hostCallsKeepMemoryCanonical : Obligations.HostCallsKeepMemoryCanonical :=
  ⟨fun _ _ _ hs h => hostCall_inv hs h, fun params _ windows answers hm => newCore_inv params hm windows answers⟩

/-- Settles O13: both sides are the same state, and the empty memory is canonical. -/
theorem resetIsConstructionOnAnEmptyBus : Obligations.ResetIsConstructionOnAnEmptyBus :=
  ⟨rfl, rfl⟩

end Sys2Proof.Machine
end

section
/-!
The host's calls (spec R402, R425, R450, R452): what construction and reset leave, and that a latch setter acts as an
answer of the bus does.
-/

namespace Sys2Proof.Machine

/-! ## Construction and reset -/

/-- Loading PC from the reset vector (R450, R452): PC, the two recorded reads, and their count. -/
theorem loadResetVector_spec (s : State) : ∃ lo hi : Byte,
    (vectorRead resetVector s).2.setPc (vectorRead resetVector s).1 = { s with
        pc          := joinBytes hi lo
        cycles      := if s.params.resetReadsCounted then s.cycles + 2 else s.cycles
        deviceReads := (vectorRead resetVector s).2.deviceReads
        accesses    := s.accesses ++ [.read 0xFFFC#16 lo, .read 0xFFFD#16 hi] }
      ∧ ReadsRam s 0xFFFC#16 lo ∧ ReadsRam s 0xFFFD#16 hi := by
  obtain ⟨lo, hi, hval, hstate, hlo, hhi⟩ := vectorRead_spec resetVector s
  refine ⟨lo, hi, ?_, hlo, hhi⟩
  rw [hval, State.setPc, hstate]
  rfl

/-- The core that construction has before it reads the reset vector (R32, R450). -/
def freshCore (params : Params) (mem : Memory) (windows : List Window) (answers : List ClockAnswer) : State where
  a            := 0x00#8
  x            := 0x00#8
  y            := 0x00#8
  sp           := 0xFF#8
  pc           := 0x0000#16
  p            := { n := false, v := false, d := false, i := true, z := false, c := false }
  cycles       := 0#32
  latch        := { nmi := false, irq := false }
  halted       := false
  params       := params
  mem          := mem
  windows      := windows
  deviceReads  := 0
  clockAnswers := answers
  accesses     := []
  returned     := 0#32

theorem newCore_eq (params : Params) (mem : Memory) (windows : List Window) (answers : List ClockAnswer) :
    newCore params mem windows answers = (vectorRead resetVector (freshCore params mem windows answers)).2.setPc
      (vectorRead resetVector (freshCore params mem windows answers)).1 := rfl

/-- Settles O14: the fresh core has the listed values, and the vector read adds PC, the two reads and their count. -/
theorem constructionValues : Obligations.ConstructionValues := by
  intro params mem windows answers
  obtain ⟨lo, hi, hstate, hlo, hhi⟩ := loadResetVector_spec (freshCore params mem windows answers)
  rw [← newCore_eq] at hstate
  refine ⟨lo, hi, ?_, ?_, ?_⟩
  · rw [hstate]
    rfl
  · rw [hstate]
    exact hlo
  · rw [hstate]
    exact hhi

/-- Settles O15: the vector read adds PC, the two reads and their count to the fields the call writes. -/
theorem resetCallValues : Obligations.ResetCallValues := fun s =>
  loadResetVector_spec { s with sp := 0xFD#8, p := { s.p with i := true }, halted := false }

/-! ## The latch setters and the halt assertion -/

/-- Settles O16: phase 2 merges a request by OR, so that it leaves the latch bit set, as the setter does. -/
theorem settersActLikeAClockAnswer : Obligations.SettersActLikeAClockAnswer := by
  intro s irq nmi w rest
  refine ⟨?irq, ?nmi, rfl⟩
  case irq => simp [clockBus, requestIrq, State.setLatch, State.clockAnswer]
  case nmi => simp [clockBus, requestNmi, State.setLatch, State.clockAnswer]

end Sys2Proof.Machine
end

section
/-!
Interrupts (spec R400-R409): what a step with a serviceable interrupt enters, what stays latched, and the return from
the handler.
-/

namespace Sys2Proof.Machine

/-! ## The entry -/

/-- A serviceable interrupt is entered, halted or not (R110). -/
theorem unitOfWork_of_serviceable {s : State} {src : Source} (h : s.serviceable = some src) :
    unitOfWork s = .next (enterInterrupt src s) := by
  simp only [unitOfWork, h]

theorem step_of_serviceable {s : State} {src : Source} (h : s.serviceable = some src) :
    step s = .next (clockBus (enterInterrupt src (beginStep s))) :=
  step_next_iff.2 ⟨_, unitOfWork_of_serviceable h, rfl⟩

/-- Interrupt entry (R406) is the shared entry from the state without its latch bit. -/
theorem enterInterrupt_entersHandler {s : State} (src : Source) (hs : s.Inv) :
    EntersHandler false s.pc src.vector (s.setLatch (s.latch.clear src)) (enterInterrupt src s) := by
  refine takeEntry_entersHandler false s.pc src.vector (setLatch_inv.2 hs) ?_
  cases src with
  | nmi => exact .inl rfl
  | irq => exact .inr rfl

section enterInterrupt

variable (src : Source) (s : State)

@[simp] theorem enterInterrupt_a : (enterInterrupt src s).a = s.a := by simp [enterInterrupt]
@[simp] theorem enterInterrupt_x : (enterInterrupt src s).x = s.x := by simp [enterInterrupt]
@[simp] theorem enterInterrupt_y : (enterInterrupt src s).y = s.y := by simp [enterInterrupt]
@[simp] theorem enterInterrupt_sp : (enterInterrupt src s).sp = s.sp - 1 - 1 - 1 := by simp [enterInterrupt]
@[simp] theorem enterInterrupt_p : (enterInterrupt src s).p = { s.p with i := true, d := false } := by
  simp [enterInterrupt]
@[simp] theorem enterInterrupt_latch : (enterInterrupt src s).latch = s.latch.clear src := by simp [enterInterrupt]
@[simp] theorem enterInterrupt_clockAnswers : (enterInterrupt src s).clockAnswers = s.clockAnswers := by
  simp [enterInterrupt]
@[simp] theorem enterInterrupt_isDevice (a : Word) : (enterInterrupt src s).isDevice a = s.isDevice a := by
  simp [enterInterrupt]

end enterInterrupt

/-- Settles O18: the step is the entry of its source and then the bus clock. -/
theorem interruptEntry : Obligations.InterruptEntry := by
  refine ⟨rfl, rfl, fun s hs => ?_⟩
  have begun : (beginStep s).Inv := hs
  exact ⟨fun h => ⟨_, step_of_serviceable h, enterInterrupt_entersHandler .nmi begun⟩,
    fun h => ⟨_, step_of_serviceable h, enterInterrupt_entersHandler .irq begun⟩⟩

/-! ## Priority and masking -/

/-- The bus's answer is merged into the latch, which loses nothing by it (D13). -/
theorem clockBus_latch_irq_of_latched {s : State} (h : s.latch.irq = true) : (clockBus s).latch.irq = true := by
  simp [clockBus, h]

theorem serviceable_ne_irq_of_masked {s : State} (h : s.p.i = true) : s.serviceable ≠ some .irq := by
  intro hirq
  obtain ⟨-, -, hi⟩ := (serviceableInterrupts s).2.1.1 hirq
  simp [h] at hi

/-- Settles O19: NMI is the first of the tests of R111, and its entry sets I and leaves the IRQ bit. -/
theorem nmiOutranksIrq : Obligations.NmiOutranksIrq := by
  intro s t hnmi hirq h
  have hentry : step s = _ := step_of_serviceable ((serviceableInterrupts s).1.2 hnmi)
  obtain rfl : clockBus (enterInterrupt .nmi (beginStep s)) = t := by simpa [hentry] using h
  have hlatch : (enterInterrupt .nmi (beginStep s)).latch = { nmi := false, irq := true } := by
    simp [Latch.clear, hirq]
  have hmasked : (clockBus (enterInterrupt .nmi (beginStep s))).p.i = true := by
    rw [clockBus_p, enterInterrupt_p]
  refine ⟨fun hs => ⟨_, rfl, ?entry⟩, clockBus_latch_irq_of_latched (by rw [hlatch]), hmasked,
    serviceable_ne_irq_of_masked hmasked, fun hquiet => ?quiet⟩
  case entry =>
    rw [← hirq]
    exact enterInterrupt_entersHandler .nmi (s := beginStep s) hs
  case quiet =>
    refine (serviceableInterrupts _).2.2.2 ⟨?_, fun _ => hmasked⟩
    have hanswer : (enterInterrupt .nmi (beginStep s)).clockAnswer = s.clockAnswer := by
      simp only [State.clockAnswer, enterInterrupt_clockAnswers, beginStep_clockAnswers]
    simp only [clockBus, hlatch, hanswer, hquiet, Bool.or_false]

/-- The latch after an instruction, BRK under BRK_CLEARS_IRQ set aside (R401). -/
theorem executeOne_latch {s t : State} (h : executeOne s = .next t)
    (hbrk : s.params.brkClearsIrq = false ∨ (fetchInstr s).1 ≠ .brk) : t.latch = s.latch := by
  have fetched : Within .pcOnly s (fetchInstr s).2 := (Within.refl s).fetchInstr rfl
  rw [← fetched.params] at hbrk
  exact ((exec_within h).latch (Footprint.ofInstr_latch_eq_false hbrk.symm)).trans (fetched.latch rfl)

/-- Settles O20: with I = 1 only NMI is entered, and its entry keeps the IRQ bit, as instructions do. -/
theorem maskedIrqStaysLatched : Obligations.MaskedIrqStaysLatched := by
  intro s t hirq hmasked h hbrk
  obtain ⟨u, hu, rfl⟩ := step_next_iff.1 h
  refine clockBus_latch_irq_of_latched ?_
  obtain ⟨src, hsrc, rfl⟩ | ⟨-, -, rfl⟩ | ⟨-, -, hexec⟩ := unitOfWork_cases hu
  · rw [enterInterrupt_latch]
    cases src with
    | nmi => exact hirq
    | irq => exact absurd hsrc (serviceable_ne_irq_of_masked hmasked)
  · exact hirq
  · rw [executeOne_latch hexec hbrk]
    exact hirq

/-! ## The return -/

/-- RTI (R293) on a stack in RAM: P and PC from the three bytes above SP. -/
theorem exec_rti_of_ram {s : State} (hstatus : s.isRam (stackAddr (s.sp + 1))) (hlo : s.isRam (stackAddr (s.sp + 2)))
    (hhi : s.isRam (stackAddr (s.sp + 3))) : ∃ t, exec .rti s = .next t
      ∧ t.pc = joinBytes (s.mem.read (stackAddr (s.sp + 3)).toNat) (s.mem.read (stackAddr (s.sp + 2)).toNat)
      ∧ t.p = Flags.ofByte (s.mem.read (stackAddr (s.sp + 1)).toNat) ∧ t.sp = s.sp + 3
      ∧ t.a = s.a ∧ t.x = s.x ∧ t.y = s.y := by
  obtain ⟨t, u, v, lo, hi, hexec, hreads, rfl, hv, hl, hh, -, -⟩ := rtiPopsStatusAndPc s
  refine ⟨_, hexec, ?_, ?_, rfl, hreads.a_eq, hreads.x_eq, hreads.y_eq⟩
  · rw [hl hlo, hh hhi]
  · rw [← hv hstatus]
    rfl

/-- The stack after an interrupt entry (R406) that pushed on RAM. -/
theorem enterInterrupt_read_stack {s : State} (src : Source) (hs : s.Inv) (hram : stackTopIsRam s) :
    (enterInterrupt src s).mem.read (stackAddr s.sp).toNat = highByte s.pc
      ∧ (enterInterrupt src s).mem.read (stackAddr (s.sp - 1)).toNat = lowByte s.pc
      ∧ (enterInterrupt src s).mem.read (stackAddr (s.sp - 2)).toNat = s.p.toByte false := by
  obtain ⟨hram0, hram1, hram2⟩ := hram
  obtain ⟨-, -, hhigh, hlow, hstatus⟩ := enterInterrupt_entersHandler src hs
  exact ⟨hhigh hram0, hlow hram1, hstatus hram2⟩

/-- Settles O24: RTI reads the three bytes that the entry wrote, at the same addresses, and `Flags.ofByte` undoes
`Flags.toByte`. -/
theorem rtiUndoesInterruptEntry : Obligations.RtiUndoesInterruptEntry := by
  intro s src hs hram
  obtain ⟨hhigh, hlow, hstatus⟩ := enterInterrupt_read_stack src hs hram
  obtain ⟨hram0, hram1, hram2⟩ := hram
  have hsp1 : (enterInterrupt src s).sp + 1 = s.sp - 2 := by rw [enterInterrupt_sp]; bv_omega
  have hsp2 : (enterInterrupt src s).sp + 2 = s.sp - 1 := by rw [enterInterrupt_sp]; bv_omega
  have hsp3 : (enterInterrupt src s).sp + 3 = s.sp := by rw [enterInterrupt_sp]; bv_omega
  have entered {a : Word} (ha : s.isRam a) : (enterInterrupt src s).isRam a :=
    (enterInterrupt_isDevice src s a).trans ha
  obtain ⟨t, hexec, hpc, hp, hsp, ha, hx, hy⟩ :=
    exec_rti_of_ram (by rw [hsp1]; exact entered hram2) (by rw [hsp2]; exact entered hram1)
      (by rw [hsp3]; exact entered hram0)
  refine ⟨t, hexec, ?ret, ?status, hsp.trans hsp3, ?others⟩
  case ret => rw [hpc, hsp3, hsp2, hhigh, hlow, joinBytes_highByte_lowByte]
  case status => rw [hp, hsp1, hstatus, Flags.ofByte_toByte]
  case others => simp only [ha, hx, hy, enterInterrupt_a, enterInterrupt_x, enterInterrupt_y, and_self]

end Sys2Proof.Machine
end

section
/-!
The tick table (spec R120, R462): how many accesses a step makes.
-/

namespace Sys2Proof.Machine

/-- The record of a step is that of its phase 1, which begins with none. -/
theorem accesses_length_of_counts {n : Nat} {s u : State} (h : Counts n (beginStep s) u) :
    (clockBus u).accesses.length = n := by
  simpa using h.accesses

/-- Settles O9: each unit of work makes its own count of accesses from the empty record on. -/
theorem ticksFollowTheOpcode : Obligations.TicksFollowTheOpcode := by
  intro s t h
  obtain ⟨u, hu, rfl⟩ := step_next_iff.1 h
  refine ⟨fun hnone hrun => ?instruction, fun hsome => ?entry, fun hnone hhalt => ?halted⟩
  case instruction =>
    have work : unitOfWork (beginStep s) = executeOne (beginStep s) := unitOfWork_of_running hnone hrun
    exact accesses_length_of_counts (executeOne_counts (work ▸ hu))
  case entry =>
    obtain ⟨src, hsrc⟩ := Option.ne_none_iff_exists'.1 hsome
    have work : unitOfWork (beginStep s) = .next (enterInterrupt src (beginStep s)) := unitOfWork_of_serviceable hsrc
    exact accesses_length_of_counts (.of_next (work ▸ hu) (enterInterrupt_counts src _))
  case halted =>
    have work : unitOfWork (beginStep s) = .next (beginStep s) := unitOfWork_of_halted hnone hhalt
    exact accesses_length_of_counts (.of_next (work ▸ hu) (.refl _))

end Sys2Proof.Machine
end

section
/-!
The bit extensions (spec R337-R340): TSB, TRB, RMBn and SMBn modify a byte of memory, BBRn and BBSn branch on a bit of
one.
-/

namespace Sys2Proof.Machine

/-! ## TSB and TRB -/

theorem testZ_eq (a m : Byte) (f : Flags) : testZ a m f = { f with z := decide (a &&& m = 0) } := rfl

/-- Settles O56: each is `rmw` of its operation, whose test is of the old byte. -/
theorem testAndChangeBits : Obligations.TestAndChangeBits := by
  refine ⟨fun m s hs => ?tsb, fun m s hs => ?trb, fun _ _ => ⟨rfl, rfl⟩⟩
  case tsb =>
    exact ⟨rmw m (tsbResult s.a) s, rfl,
      modifyLoc_modifies_of_eq (fun v f => by rw [tsbResult, testZ_eq]) (.mem m) hs⟩
  case trb =>
    exact ⟨rmw m (trbResult s.a) s, rfl,
      modifyLoc_modifies_of_eq (fun v f => by rw [trbResult, testZ_eq]) (.mem m) hs⟩

/-! ## RMBn and SMBn -/

theorem bitMask_getLsbD (n k : Fin 8) : (bitMask n).getLsbD k = decide (k = n) := by
  have hmask : bitMask n = BitVec.twoPow 8 n := rfl
  rw [hmask, BitVec.getLsbD_twoPow]
  simp [Fin.ext_iff, eq_comm]

theorem rmbResult_getLsbD (n k : Fin 8) (v : Byte) (f : Flags) :
    (rmbResult n v f).1.getLsbD k = (v.getLsbD k && decide (k ≠ n)) := by
  rw [rmbResult, BitVec.getLsbD_and, BitVec.getLsbD_not, bitMask_getLsbD]
  simp

theorem smbResult_getLsbD (n k : Fin 8) (v : Byte) (f : Flags) :
    (smbResult n v f).1.getLsbD k = (v.getLsbD k || decide (k = n)) := by
  rw [smbResult, BitVec.getLsbD_or, bitMask_getLsbD]

/-- `rmw` of a zero-page byte by an operation that leaves the flags (R131, R136). -/
theorem rmw_zeroPage_storesByte {s : State} {f : Byte → Flags → Byte × Flags} (zz : Byte) (hs : s.Inv)
    (hf : ∀ v p, (f v p).2 = p) :
    StoresByte [.read (zeroPageAddr zz) (s.busValue (zeroPageAddr zz))] (zeroPageAddr zz)
      (f (s.busValue (zeroPageAddr zz)) s.p).1 s (rmw (.zp zz) f s) := by
  have hstores : StoresByte _ _ _ _ _ := modifyLoc_modifies (.mem (.zp zz)) f hs
  rw [hf] at hstores
  exact hstores

/-- Settles O57: both are `rmw` of the zero-page byte, and their mask is bit n alone. -/
theorem bitsOfZeroPageBytes : Obligations.BitsOfZeroPageBytes := by
  intro n rmb smb hmem zz s hs
  have hread := memRead_readsRam (zeroPageAddr zz) s
  have hrmb := rmw_zeroPage_storesByte (f := rmbResult n) zz hs fun _ _ => rfl
  have hsmb := rmw_zeroPage_storesByte (f := smbResult n) zz hs fun _ _ => rfl
  have clears (k : Fin 8) := rmbResult_getLsbD n k (s.busValue (zeroPageAddr zz)) s.p
  have sets (k : Fin 8) := smbResult_getLsbD n k (s.busValue (zeroPageAddr zz)) s.p
  simp only [List.mem_cons, Prod.mk.injEq, List.not_mem_nil, or_false] at hmem
  obtain ⟨rfl, rfl, rfl⟩ | ⟨rfl, rfl, rfl⟩ | ⟨rfl, rfl, rfl⟩ | ⟨rfl, rfl, rfl⟩ |
    ⟨rfl, rfl, rfl⟩ | ⟨rfl, rfl, rfl⟩ | ⟨rfl, rfl, rfl⟩ | ⟨rfl, rfl, rfl⟩ := hmem
  all_goals
    exact ⟨⟨_, _, _, rfl, hrmb, rfl, hread, clears⟩, ⟨_, _, _, rfl, hsmb, rfl, hread, sets⟩, rfl, rfl⟩

/-! ## BBRn and BBSn -/

/-- One read of the zero-page byte, and the branch where its bit is the one wanted (R339). -/
theorem branchOnBit_eq (n : Nat) (want : Bool) (zz d : Byte) (s : State) : branchOnBit n want zz d s =
    if (s.busValue (zeroPageAddr zz)).getLsbD n = want then
      { (memRead (zeroPageAddr zz) s).2 with pc := branchTarget s.pc d }
    else (memRead (zeroPageAddr zz) s).2 := by
  simp only [branchOnBit, branchIf_eq, memRead_fst, memRead_pc, beq_iff_eq]

theorem branchOnBit_false (n : Nat) (zz d : Byte) (s : State) : branchOnBit n false zz d s =
    if (s.busValue (zeroPageAddr zz)).getLsbD n then (memRead (zeroPageAddr zz) s).2
    else { (memRead (zeroPageAddr zz) s).2 with pc := branchTarget s.pc d } := by
  rw [branchOnBit_eq]
  cases (s.busValue (zeroPageAddr zz)).getLsbD n <;> rfl

theorem branchOnBit_true (n : Nat) (zz d : Byte) (s : State) : branchOnBit n true zz d s =
    if (s.busValue (zeroPageAddr zz)).getLsbD n then
      { (memRead (zeroPageAddr zz) s).2 with pc := branchTarget s.pc d }
    else (memRead (zeroPageAddr zz) s).2 :=
  branchOnBit_eq n true zz d s

/-- Settles O58: both are `branchOnBit`, which reads the byte once and wants its bit to be 0 or 1. -/
theorem branchesOnBits : Obligations.BranchesOnBits := by
  intro n bbr bbs hmem zz d s
  refine ⟨s.busValue (zeroPageAddr zz), (memRead (zeroPageAddr zz) s).2, memRead_afterReads _ s,
    memRead_readsRam _ s, ?_⟩
  rw [← branchOnBit_false, ← branchOnBit_true]
  simp only [List.mem_cons, Prod.mk.injEq, List.not_mem_nil, or_false] at hmem
  obtain ⟨rfl, rfl, rfl⟩ | ⟨rfl, rfl, rfl⟩ | ⟨rfl, rfl, rfl⟩ | ⟨rfl, rfl, rfl⟩ |
    ⟨rfl, rfl, rfl⟩ | ⟨rfl, rfl, rfl⟩ | ⟨rfl, rfl, rfl⟩ | ⟨rfl, rfl, rfl⟩ := hmem
  all_goals exact ⟨rfl, rfl, rfl, rfl⟩

end Sys2Proof.Machine
end

section
/-!
The tick counter (spec R13, R431, R463): nothing reads it, so that every operation does the same from a counter that
stands `d` ticks further on.
-/

namespace Sys2Proof.Machine

/-- The same state with the counter `d` ticks further on. -/
def addCycles (d : BitVec 32) (s : State) : State := { s with cycles := s.cycles + d }

/-- The same outcome, a next state having the counter `d` ticks further on. -/
def addCyclesNext (d : BitVec 32) : Host.Outcome State Fault Refusal → Host.Outcome State Fault Refusal
  | .next t    => .next (addCycles d t)
  | .fault r   => .fault r
  | .refused r => .refused r

section addCycles

variable (d : BitVec 32) (s : State)

@[simp] theorem addCycles_a : (addCycles d s).a = s.a := rfl
@[simp] theorem addCycles_x : (addCycles d s).x = s.x := rfl
@[simp] theorem addCycles_y : (addCycles d s).y = s.y := rfl
@[simp] theorem addCycles_sp : (addCycles d s).sp = s.sp := rfl
@[simp] theorem addCycles_pc : (addCycles d s).pc = s.pc := rfl
@[simp] theorem addCycles_p : (addCycles d s).p = s.p := rfl
@[simp] theorem addCycles_latch : (addCycles d s).latch = s.latch := rfl
@[simp] theorem addCycles_params : (addCycles d s).params = s.params := rfl

@[simp] theorem setSp_addCycles (v : Byte) : (addCycles d s).setSp v = addCycles d (s.setSp v) := rfl
@[simp] theorem setPc_addCycles (w : Word) : (addCycles d s).setPc w = addCycles d (s.setPc w) := rfl
@[simp] theorem setP_addCycles (f : Flags) : (addCycles d s).setP f = addCycles d (s.setP f) := rfl
@[simp] theorem setLatch_addCycles (l : Latch) : (addCycles d s).setLatch l = addCycles d (s.setLatch l) := rfl

theorem tick_addCycles : tick (addCycles d s) = addCycles d (tick s) := by
  have hcount : s.cycles + d + 1 = s.cycles + 1 + d := by bv_omega
  simp only [tick, addCycles, hcount]

@[simp] theorem memRead_addCycles (a : Word) :
    memRead a (addCycles d s) = ((memRead a s).1, addCycles d (memRead a s).2) :=
  congrArg (Prod.mk _) (tick_addCycles d (busRead a s).2)

@[simp] theorem memWrite_addCycles (a : Word) (v : Byte) :
    memWrite a v (addCycles d s) = addCycles d (memWrite a v s) :=
  tick_addCycles d (busWrite a v s)

/-! ### Stack, addressing modes, branches -/

@[simp] theorem push_addCycles (v : Byte) : push v (addCycles d s) = addCycles d (push v s) := by
  simp only [push, addCycles_sp, memWrite_addCycles, setSp_addCycles]

@[simp] theorem pushWord_addCycles (w : Word) : pushWord w (addCycles d s) = addCycles d (pushWord w s) := by
  simp only [pushWord, push_addCycles]

@[simp] theorem pop_addCycles : pop (addCycles d s) = ((pop s).1, addCycles d (pop s).2) := by
  simp only [pop, addCycles_sp, setSp_addCycles, memRead_addCycles]

@[simp] theorem popWord_addCycles : popWord (addCycles d s) = ((popWord s).1, addCycles d (popWord s).2) := by
  simp only [popWord, pop_addCycles]

@[simp] theorem readPair_addCycles (aLo aHi : Word) :
    readPair aLo aHi (addCycles d s) = ((readPair aLo aHi s).1, addCycles d (readPair aLo aHi s).2) := by
  simp only [readPair, memRead_addCycles]

@[simp] theorem resolve_addCycles (m : Addr) :
    resolve m (addCycles d s) = ((resolve m s).1, addCycles d (resolve m s).2) := by
  cases m with
  | zp _ | zpX _ | zpY _ | abs _ | absX _ | absY _ => rfl
  | indX _ | indY _ | ind _ => simp only [resolve, read16zp, readPair_addCycles, addCycles_x, addCycles_y]

@[simp] theorem load_addCycles (src : Src) :
    load src (addCycles d s) = ((load src s).1, addCycles d (load src s).2) := by
  cases src with
  | imm _ => rfl
  | mem m => simp only [load, resolve_addCycles, memRead_addCycles]

@[simp] theorem jumpTarget_addCycles (g : Target) :
    jumpTarget g (addCycles d s) = ((jumpTarget g s).1, addCycles d (jumpTarget g s).2) := by
  cases g with
  | abs _ => rfl
  | ind _ | indX _ => simp only [jumpTarget, read16, readPair_addCycles, addCycles_x]

@[simp] theorem branchIf_addCycles (cond : Bool) (b : Byte) :
    branchIf cond b (addCycles d s) = addCycles d (branchIf cond b s) := by
  cases cond <;> rfl

theorem branchOnBit_addCycles (n : Nat) (want : Bool) (zz b : Byte) :
    branchOnBit n want zz b (addCycles d s) = addCycles d (branchOnBit n want zz b s) := by
  simp only [branchOnBit, memRead_addCycles, branchIf_addCycles]

/-! ### The access classes, the entry and its return -/

theorem store_addCycles (m : Addr) (v : Byte) : store m v (addCycles d s) = addCycles d (store m v s) := by
  simp only [store, resolve_addCycles, memWrite_addCycles]

theorem rmw_addCycles (m : Addr) (f : Byte → Flags → Byte × Flags) :
    rmw m f (addCycles d s) = addCycles d (rmw m f s) := by
  simp only [rmw, resolve_addCycles, memRead_addCycles, addCycles_p, setP_addCycles, memWrite_addCycles]

theorem modifyLoc_addCycles (loc : Loc) (f : Byte → Flags → Byte × Flags) :
    modifyLoc loc f (addCycles d s) = addCycles d (modifyLoc loc f s) := by
  cases loc with
  | acc => rfl
  | mem m => exact rmw_addCycles d s m f

theorem accumulate_addCycles (f : Byte → Byte → Flags → Byte × Flags) (src : Src) :
    accumulate f src (addCycles d s) = addCycles d (accumulate f src s) := by
  simp only [accumulate, load_addCycles, addCycles_a, addCycles_p]
  rfl

theorem compareRegister_addCycles (reg : Byte) (src : Src) :
    compareRegister reg src (addCycles d s) = addCycles d (compareRegister reg src s) := by
  simp only [compareRegister, load_addCycles, addCycles_p, setP_addCycles]

theorem takeEntry_addCycles (b : Bool) (ret vector : Word) :
    takeEntry b ret vector (addCycles d s) = addCycles d (takeEntry b ret vector s) := by
  simp only [takeEntry, read16, pushWord_addCycles, push_addCycles, readPair_addCycles, addCycles_p, setP_addCycles,
    setPc_addCycles]

theorem softwareInterrupt_addCycles : softwareInterrupt (addCycles d s) = addCycles d (softwareInterrupt s) := by
  cases hclears : s.params.brkClearsIrq with
  | true | false => simp [softwareInterrupt, hclears, takeEntry_addCycles]

theorem returnFromInterrupt_addCycles :
    returnFromInterrupt (addCycles d s) = addCycles d (returnFromInterrupt s) := by
  simp only [returnFromInterrupt, pop_addCycles, popWord_addCycles, setP_addCycles, setPc_addCycles]

end addCycles

theorem next_eq_addCyclesNext {d : BitVec 32} {t u : State} (h : t = addCycles d u) :
    .next t = addCyclesNext d (.next u) := congrArg Host.Outcome.next h

/-- Every instruction does the same from the later count. -/
theorem exec_addCycles (d : BitVec 32) (i : Instr) (s : State) :
    exec i (addCycles d s) = addCyclesNext d (exec i s) := by
  cases i with
  | lda src | ldx src | ldy src => simp only [exec_lda, exec_ldx, exec_ldy, load_addCycles]; rfl
  | adc src | sbc src | and src | ora src | eor src =>
    exact next_eq_addCyclesNext (accumulate_addCycles d s _ src)
  | cmp src | cpx src | cpy src => exact next_eq_addCyclesNext (compareRegister_addCycles d s _ src)
  | bit src =>
    cases src with
    | imm _ => rfl
    | mem m => simp only [exec_bit_mem, load_addCycles]; rfl
  | sta dst | stx dst | sty dst | stz dst => exact next_eq_addCyclesNext (store_addCycles d s dst _)
  | tax | tay | tsx | txa | txs | tya | inx | dex | iny | dey | clc | sec | cli | sei | clv | cld | sed
  | nop | nopUndefined _ | wai | stp => rfl
  | pha | php | phx | phy => exact next_eq_addCyclesNext (push_addCycles d s _)
  | pla | plp | plx | ply => simp only [exec_pla, exec_plp, exec_plx, exec_ply, pop_addCycles]; rfl
  | asl loc | lsr loc | rol loc | ror loc | inc loc | dec loc =>
    exact next_eq_addCyclesNext (modifyLoc_addCycles d s loc _)
  | tsb loc | trb loc => exact next_eq_addCyclesNext (rmw_addCycles d s loc _)
  | bpl b | bmi b | bvc b | bvs b | bcc b | bcs b | bne b | beq b | bra b =>
    exact next_eq_addCyclesNext (branchIf_addCycles d s _ b)
  | jmp target => simp only [exec, execJmp, jumpTarget_addCycles]; rfl
  | jsr target => exact next_eq_addCyclesNext (congrArg (·.setPc target) (pushWord_addCycles d s _))
  | rts => simp only [exec, execRts, popWord_addCycles]; rfl
  | rti => exact next_eq_addCyclesNext (returnFromInterrupt_addCycles d s)
  | brk => exact next_eq_addCyclesNext (softwareInterrupt_addCycles d s)
  | rmb0 zz | rmb1 zz | rmb2 zz | rmb3 zz | rmb4 zz | rmb5 zz | rmb6 zz | rmb7 zz
  | smb0 zz | smb1 zz | smb2 zz | smb3 zz | smb4 zz | smb5 zz | smb6 zz | smb7 zz =>
    exact next_eq_addCyclesNext (rmw_addCycles d s (.zp zz) _)
  | bbr0 zz b | bbr1 zz b | bbr2 zz b | bbr3 zz b | bbr4 zz b | bbr5 zz b | bbr6 zz b | bbr7 zz b
  | bbs0 zz b | bbs1 zz b | bbs2 zz b | bbs3 zz b | bbs4 zz b | bbs5 zz b | bbs6 zz b | bbs7 zz b =>
    exact next_eq_addCyclesNext (branchOnBit_addCycles d s _ _ zz b)

/-- Settles O10: to begin with another count is to begin so many ticks further on. -/
theorem resultsDoNotDependOnCycles : Obligations.ResultsDoNotDependOnCycles := by
  intro i s t k h
  have hbegin : { s with cycles := k } = addCycles (k - s.cycles) s := by
    rw [addCycles, BitVec.add_comm, BitVec.sub_add_cancel]
  have hend : { t with cycles := k + (t.cycles - s.cycles) } = addCycles (k - s.cycles) t := by
    have hcount : k + (t.cycles - s.cycles) = t.cycles + (k - s.cycles) := by bv_omega
    rw [addCycles, hcount]
  rw [hbegin, hend, exec_addCycles, h]
  rfl

end Sys2Proof.Machine
end
